-- ==== Sys2Proof/Word.lean ====
section
/-! DEFINITION. The two word types of the machine (00_scope R7): bytes and processor addresses. Everything computed on them stands in
Machine/Bits.lean and later files. -/

namespace Sys2Proof

/-- `u8` of 00_scope R7: a register, a byte of memory, a byte of an instruction. -/
abbrev Byte := BitVec 8

/-- `u16` of 00_scope R7: the program counter and every address on the processor's bus. -/
abbrev Addr := BitVec 16

end Sys2Proof
end

