-- ==== Sys2Proof/Machine/Bits.lean ====
section
/-! DEFINITION. Bit fields, widenings and byte order: the notation of 00_scope R7. -/

namespace Sys2Proof.Machine

/-- `word(h, l) = h || l` (00_scope R7). -/
def word (h l : Byte) : Addr := h ++ l

/-- `lo(v) = v[7:0]`. -/
def lo (v : Addr) : Byte := v.setWidth 8

/-- `hi(v) = v[15:8]`. -/
def hi (v : Addr) : Byte := v.extractLsb' 8 8

/-- `zext_16(v)`. -/
def zext16 (v : Byte) : Addr := v.setWidth 16

/-- `sext_16(v)`: bit 7 copied into bits 15 to 8. -/
def sext16 (v : Byte) : Addr := v.signExtend 16

/-- `v[i]` as the number 0 or 1. -/
def bit (v : Byte) (i : Nat) : Nat := (v.getLsbD i).toNat

/-- `Reverse8(b)` swaps bit `i` with bit `7 − i` (61_picture_unit R380). -/
def reverse8 (b : Byte) : Byte :=
  BitVec.ofNat 8 (128 * bit b 0 + 64 * bit b 1 + 32 * bit b 2 + 16 * bit b 3 + 8 * bit b 4 + 4 * bit b 5 + 2 * bit b 6 + bit b 7)

/-- Whether two addresses lie in different 256-byte pages (30_encoding R147). -/
def pageCrossed (base ea : Addr) : Bool := hi base != hi ea

/-- The address that follows `a` inside the 256-byte page of `a` (00_scope R9, `Read16Wrap`). -/
def nextInPage (a : Addr) : Addr := word (hi a) (lo a + 1)

/-- The slot of the stack page that a stack pointer names (10_state R22). -/
def stackSlot (sp : Byte) : Addr := 0x0100 ||| zext16 sp

end Sys2Proof.Machine
end

