-- ==== Sys2Proof/Machine/Memory.lean ====
section
/-! DEFINITION. Byte arrays as plain data: a list of (index, byte) pairs in one canonical form, indices strictly rising and no entry equal to
what an unlisted index reads as. Every array of the machine (RAM, OAM, palette, ROM images, …) is one of these. -/

namespace Sys2Proof.Machine

/-- A byte array. -/
abbrev Memory := List Host.Cell

namespace Memory

/-- What an index with no entry reads as. DESIGN CHOICE (log 4), unsafe for RAM: the spec's default RAM_INIT is all 0x00 (10_state R47) and its
power-on values of the other arrays are 0x00 (10_state R48, R49). -/
def blank : Byte := 0x00

/-- The byte at an index. -/
def read : Memory → Nat → Byte
  | [], _ => blank
  | (b, u) :: m, a => if a = b then u else read m a

/-- Store a byte, keeping the canonical form: storing `blank` removes the entry. -/
def write : Memory → Nat → Byte → Memory
  | [], a, v => if v = blank then [] else [(a, v)]
  | (b, u) :: m, a, v =>
    if a < b then (if v = blank then (b, u) :: m else (a, v) :: (b, u) :: m)
    else if a = b then (if v = blank then m else (a, v) :: m)
    else (b, u) :: write m a v

/-- Every index of the list is at least `k`, indices rise strictly, no entry is `blank`. -/
def wfFrom : Nat → Memory → Bool
  | _, [] => true
  | k, (a, v) :: m => decide (k ≤ a) && (v != blank) && wfFrom (a + 1) m

/-- The canonical form. -/
def wf (m : Memory) : Bool := wfFrom 0 m

/-- Every listed index is below `size`. -/
def below (size : Nat) (m : Memory) : Bool := m.all fun cell => decide (cell.1 < size)

/-- The canonical array of `size` bytes at most: the form every array of the state keeps. -/
def fits (size : Nat) (m : Memory) : Bool := wf m && below size m

/-- The array that holds a list of bytes from index `k` on. -/
def ofBytesFrom : Nat → List Byte → Memory
  | _, [] => []
  | k, b :: bs => if b = blank then ofBytesFrom (k + 1) bs else (k, b) :: ofBytesFrom (k + 1) bs

/-- The array that holds a list of bytes from index 0 on. -/
def ofBytes (bs : List Byte) : Memory := ofBytesFrom 0 bs

/-- The array whose first `n` bytes are `v`. -/
def fill (n : Nat) (v : Byte) : Memory := ofBytes (List.replicate n v)

end Memory

end Sys2Proof.Machine
end

