-- ==== Sys2Proof/Machine/Cartridge.lean ====
section
/-! DEFINITION. The cartridge side of both buses (21_cartridge_mappers): the image and its header, the four mapper variants with their registers, bank
mapping and mirroring. A mapper changes nothing but what stands here (R131). -/

namespace Sys2Proof.Machine

/-- The mirroring modes (10_state R40). -/
inductive Mirroring where
  | horizontal
  | vertical
  | singleA
  | singleB
  | fourScreen
deriving DecidableEq, Repr

/-- The immutable part of a cartridge (10_state R40). `prgBanks` and `chrBanks` are header bytes 4 and 5. -/
structure Image where
  prgBanks : Nat
  chrBanks : Nat
  mapperId : Byte
  mirroring : Mirroring
  prg : Memory
deriving DecidableEq, Repr

/-- The registers of the serial-shift-register variant (10_state R41). -/
structure SerialRegs where
  shift : BitVec 5
  shiftCount : Nat
  control : BitVec 5
  chrBank0 : BitVec 5
  chrBank1 : BitVec 5
  prgBank : BitVec 5
deriving DecidableEq, Repr

/-- The registers of the dual bank-select variant (10_state R41). Nothing clocks `irqCounter` (R128). -/
structure DualRegs where
  bankSelect : Byte
  bankReg : Vector Byte 8
  mirrorReg : Bool
  irqLatch : Byte
  irqCounter : Byte
  irqReload : Bool
  irqEnable : Bool
deriving DecidableEq, Repr

/-- The variant and its registers, "one concrete variant selected once at load time" (R102). -/
inductive MapperRegs where
  | fixedBank
  | bankSelect (chrBank : Byte)
  | serial (r : SerialRegs)
  | dual (r : DualRegs)
deriving DecidableEq, Repr

/-- A cartridge with its mapper's state: the image, the bank registers, the current mirroring mode `mirroring_now` (R106), the graphics bytes (RAM when
the header's byte 5 is 0, else ROM) and the cartridge RAM (R111). -/
structure Cart where
  image : Image
  regs : MapperRegs
  mirroring : Mirroring
  chr : Memory
  prgRam : Memory
deriving DecidableEq, Repr

/-- OPEN_BUS_VALUE (00_scope R6; 20_memory R88). -/
def openBus : Byte := 0x00

/-- `len(prg)` (R100). -/
def Image.prgSize (img : Image) : Nat := 16384 * img.prgBanks

/-- `len(chr)`: 8192 bytes of RAM when there is no graphics ROM (R100). -/
def Image.chrSize (img : Image) : Nat := if img.chrBanks = 0 then 8192 else 8192 * img.chrBanks

/-- Whether `chr` is RAM (R107). -/
def Image.chrIsRam (img : Image) : Bool := img.chrBanks == 0

/-- The variant of an identifier (R102), with the registers of 10_state R49; an unknown identifier has none. -/
def initialRegs (mapperId : Byte) : Option MapperRegs :=
  if mapperId = 0 then some .fixedBank
  else if mapperId = 1 then
    some (.serial { shift := 0, shiftCount := 0, control := 0b01100, chrBank0 := 0, chrBank1 := 0, prgBank := 0 })
  else if mapperId = 3 then some (.bankSelect 0)
  else if mapperId = 4 then
    some (.dual { bankSelect := 0, bankReg := #v[0, 0, 0, 0, 0, 0, 0, 0], mirrorReg := false, irqLatch := 0, irqCounter := 0,
                  irqReload := false, irqEnable := false })
  else none

/-- The offset `Bank(image, size, index, a)` takes in an image of `len` bytes (R103). -/
def bankOffset (len size index a : Nat) : Nat := ((index % max 1 (len / size)) * size + a % size) % len

/-- Program mode, bits 3:2 of the serial variant's `control` (R116). -/
def SerialRegs.programMode (r : SerialRegs) : Nat := (r.control.extractLsb' 2 2).toNat

/-- Graphics mode, bit 4 of `control` (R116). -/
def SerialRegs.graphicsMode (r : SerialRegs) : Bool := r.control.getLsbD 4

/-- The mirroring mode that `control[1:0]` names (R116). -/
def serialMirroring (control : BitVec 5) : Mirroring :=
  match (control.setWidth 2).toNat with
  | 0 => .singleA
  | 1 => .singleB
  | 2 => .vertical
  | _ => .horizontal

/-- Program mapping of the serial variant (R117). -/
def serialPrgOffset (r : SerialRegs) (len a : Nat) : Nat :=
  let p := (r.prgBank.setWidth 4).toNat
  let last := len / 16384 - 1
  match r.programMode with
  | 2 => if a < 0xC000 then bankOffset len 16384 0 a else bankOffset len 16384 p a
  | 3 => if a < 0xC000 then bankOffset len 16384 p a else bankOffset len 16384 last a
  | _ => bankOffset len 32768 (p / 2) a

/-- Graphics mapping of the serial variant (R118). -/
def serialChrOffset (r : SerialRegs) (len a : Nat) : Nat :=
  if r.graphicsMode then
    (if a < 0x1000 then bankOffset len 4096 r.chrBank0.toNat a else bankOffset len 4096 r.chrBank1.toNat a)
  else bankOffset len 8192 (r.chrBank0.toNat / 2) a

/-- Program mapping of the dual variant (R122): the 8 KB bank of each window. -/
def dualPrgBank (r : DualRegs) (len a : Nat) : Nat :=
  let n := len / 8192
  let m := r.bankSelect.getLsbD 6
  if a < 0xA000 then (if m then n - 2 else r.bankReg[6].toNat)
  else if a < 0xC000 then r.bankReg[7].toNat
  else if a < 0xE000 then (if m then r.bankReg[6].toNat else n - 2)
  else n - 1

/-- Graphics mapping of the dual variant (R123): the 1 KB bank of each window. -/
def dualChrBank (r : DualRegs) (a : Nat) : Nat :=
  let a' := if r.bankSelect.getLsbD 7 then a ^^^ 0x1000 else a
  if a' < 0x0800 then (r.bankReg[0] &&& 0xFE).toNat + a' / 1024 % 2
  else if a' < 0x1000 then (r.bankReg[1] &&& 0xFE).toNat + a' / 1024 % 2
  else if a' < 0x1400 then r.bankReg[2].toNat
  else if a' < 0x1800 then r.bankReg[3].toNat
  else if a' < 0x1C00 then r.bankReg[4].toNat
  else r.bankReg[5].toNat

/-- The offset in program ROM of a processor address from 0x8000 on, by variant (R108, R113, R117, R122). -/
def Cart.prgOffset (c : Cart) (a : Addr) : Nat :=
  let len := c.image.prgSize
  match c.regs with
  | .fixedBank => (a.toNat - 0x8000) % len
  | .bankSelect _ => (a.toNat - 0x8000) % len
  | .serial r => serialPrgOffset r len a.toNat
  | .dual r => bankOffset len 8192 (dualPrgBank r len a.toNat) a.toNat

/-- `ChrOffset(a)` of a pattern-table address, by variant (R109, R113, R118, R123). -/
def Cart.chrOffset (c : Cart) (a : Nat) : Nat :=
  let len := c.image.chrSize
  match c.regs with
  | .fixedBank => a % len
  | .bankSelect b => bankOffset len 8192 b.toNat a
  | .serial r => serialChrOffset r len a
  | .dual r => bankOffset len 1024 (dualChrBank r a) a

/-- Whether the variant has cartridge RAM at 0x6000 to 0x7FFF (R111). -/
def Cart.hasPrgRam (c : Cart) : Bool :=
  match c.regs with
  | .fixedBank => false
  | .bankSelect _ => false
  | .serial _ => true
  | .dual _ => true

/-- `cpu_read(a)` for `a` in 0x4020 to 0xFFFF (R103); what a variant does not declare reads as open bus (R111). -/
def Cart.cpuRead (c : Cart) (a : Addr) : Byte :=
  if 0x8000 ≤ a.toNat then c.image.prg.read (c.prgOffset a)
  else if 0x6000 ≤ a.toNat && c.hasPrgRam then c.prgRam.read (a.toNat - 0x6000)
  else openBus

/-- A mode a mapper selects, unless the header's mode is four-screen (R106). -/
def Cart.selectMirroring (c : Cart) (m : Mirroring) : Cart :=
  if c.image.mirroring = .fourScreen then c else { c with mirroring := m }

/-- `Commit(sel, value)` of the serial variant (R115, R119). -/
def Cart.commit (c : Cart) (r : SerialRegs) (sel : Nat) (value : BitVec 5) : Cart :=
  match sel with
  | 0 => { c with regs := .serial { r with control := value } }.selectMirroring (serialMirroring value)
  | 1 => { c with regs := .serial { r with chrBank0 := value } }
  | 2 => { c with regs := .serial { r with chrBank1 := value } }
  | _ => { c with regs := .serial { r with prgBank := value } }

/-- A write to the serial variant's ROM space (R114). -/
def Cart.serialWrite (c : Cart) (r : SerialRegs) (a : Addr) (v : Byte) : Cart :=
  if v.getLsbD 7 then { c with regs := .serial { r with shift := 0, shiftCount := 0 } }
  else
    let shift : BitVec 5 := (r.shift >>> 1) ||| ((v &&& 1).setWidth 5 <<< 4)
    if r.shiftCount + 1 = 5 then c.commit { r with shift := 0, shiftCount := 0 } ((a.extractLsb' 13 2).toNat) shift
    else { c with regs := .serial { r with shift := shift, shiftCount := r.shiftCount + 1 } }

/-- `Clamp(slot, v)` (R121). -/
def dualClamp (slot : BitVec 3) (v : Byte) : Byte :=
  if slot.toNat < 2 then v &&& 0xFE else if slot.toNat < 6 then v else v &&& 0x3F

/-- A write to the dual variant's ROM space (R120). -/
def Cart.dualWrite (c : Cart) (r : DualRegs) (a : Addr) (v : Byte) : Cart :=
  match (a &&& 0xE001).toNat with
  | 0x8000 => { c with regs := .dual { r with bankSelect := v } }
  | 0x8001 =>
    let slot : BitVec 3 := r.bankSelect.setWidth 3
    { c with regs := .dual { r with bankReg := r.bankReg.set slot.toNat (dualClamp slot v) slot.isLt } }
  | 0xA000 =>
    { c with regs := .dual { r with mirrorReg := v.getLsbD 0 } }.selectMirroring (if v.getLsbD 0 then .horizontal else .vertical)
  | 0xC000 => { c with regs := .dual { r with irqLatch := v } }
  | 0xC001 => { c with regs := .dual { r with irqReload := true } }
  | 0xE000 => { c with regs := .dual { r with irqEnable := false } }
  | 0xE001 => { c with regs := .dual { r with irqEnable := true } }
  | _ => c

/-- `cpu_write(a, v)` for `a` in 0x4020 to 0xFFFF (R103, R110, R111, R112, R114, R120). -/
def Cart.cpuWrite (c : Cart) (a : Addr) (v : Byte) : Cart :=
  if 0x8000 ≤ a.toNat then
    match c.regs with
    | .fixedBank => c
    | .bankSelect _ => { c with regs := .bankSelect v }
    | .serial r => c.serialWrite r a v
    | .dual r => c.dualWrite r a v
  else if 0x6000 ≤ a.toNat && c.hasPrgRam then { c with prgRam := c.prgRam.write (a.toNat - 0x6000) v }
  else c

/-- `ppu_read(a)` for a pattern-table address (R107). -/
def Cart.ppuRead (c : Cart) (a : Nat) : Byte := c.chr.read (c.chrOffset a)

/-- `ppu_write(a, v)` (R107): a write to graphics ROM is ignored. -/
def Cart.ppuWrite (c : Cart) (a : Nat) (v : Byte) : Cart :=
  if c.image.chrIsRam then { c with chr := c.chr.write (c.chrOffset a) v } else c

/-- The bank of a logical nametable (R105). -/
def mirrorBank (m : Mirroring) (t : Nat) : Nat :=
  match m with
  | .horizontal => t / 2
  | .vertical => t % 2
  | .singleA => 0
  | .singleB => 1
  | .fourScreen => t

/-- `Mirror(a)` for `a` in 0x2000 to 0x2FFF (R104). -/
def Cart.mirror (c : Cart) (a : Nat) : Nat := mirrorBank c.mirroring ((a - 0x2000) / 1024) * 0x400 + a % 0x400

/-- The size of nametable RAM (10_state R38). -/
def Image.nametableSize (img : Image) : Nat := if img.mirroring = .fourScreen then 4096 else 2048

/-- A cartridge as it is right after load: the power-on values of 10_state R49. -/
def Image.insert (img : Image) (regs : MapperRegs) (chr : Memory) : Cart :=
  { image := img, regs := regs, mirroring := img.mirroring, chr := chr, prgRam := [] }

/-- Why an image is no cartridge (R101). These end before the machine exists: "run never starts".
The rule writes `LoadFailure(reason)` and names the conditions; which of them is the reason when several hold is settled by `loadImage`
(log 14). -/
inductive LoadFailure where
  /-- `h[0..3]` is not the magic constant -/
  | badMagic
  /-- the image has fewer bytes than its header announces -/
  | truncated
  /-- the mapper identifier is none of the four of R102 -/
  | unknownMapper (mapperId : Byte)
  /-- header byte 4 is 0 -/
  | noProgramRom
deriving DecidableEq, Repr

/-- `mapper_id = (h[7] & 0xF0) | (h[6] >> 4)` (R100). -/
def headerMapperId (h6 h7 : Byte) : Byte := (h7 &&& 0xF0) ||| (h6 >>> 4)

/-- The header's mirroring mode (R100): four-screen overrides. -/
def headerMirroring (h6 : Byte) : Mirroring :=
  if h6.getLsbD 3 then .fourScreen else if h6.getLsbD 0 then .vertical else .horizontal

/-- The bytes of an image before its program ROM: the header and, when bit 2 of byte 6 says so, a trainer that is discarded (R100). -/
def headerSize (h6 : Byte) : Nat := if h6.getLsbD 2 then 16 + 512 else 16

/-- Parsing a cartridge image (R100, R101).
DESIGN CHOICE (log 14): where several of R101's conditions hold at once the spec gives no order among the reasons; the model reports the
first that holds of: the magic constant, the length, header byte 4 equal to 0, the mapper identifier. Whether an image is accepted does
not depend on that order. -/
def loadImage (bytes : List Byte) : Except LoadFailure Cart :=
  let h := fun k => bytes.getD k 0
  let prgSize := 16384 * (h 4).toNat
  let chrSize := 8192 * (h 5).toNat
  let id := headerMapperId (h 6) (h 7)
  if bytes.take 4 ≠ [0x4E, 0x45, 0x53, 0x1A] then .error .badMagic
  else if bytes.length < headerSize (h 6) + prgSize + chrSize then .error .truncated
  else if h 4 = 0 then .error .noProgramRom
  else
    match initialRegs id with
    | none => .error (.unknownMapper id)
    | some regs =>
      let body := bytes.drop (headerSize (h 6))
      let image : Image :=
        { prgBanks := (h 4).toNat, chrBanks := (h 5).toNat, mapperId := id, mirroring := headerMirroring (h 6)
          prg := Memory.ofBytes (body.take prgSize) }
      .ok (image.insert regs (Memory.ofBytes ((body.drop prgSize).take chrSize)))

end Sys2Proof.Machine
end

