-- ==== Sys2Proof/Machine/Flags.lean ====
section
/-! DEFINITION. The seven status flags, their packing, and every flag computation of the instruction set (10_state R23 to R28). -/

namespace Sys2Proof.Machine

/-- The seven flags, "stored individually" (10_state R23): Carry, Zero, InterruptDisable, Decimal, Break, Overflow, Negative. -/
structure Flags where
  c : Bool
  z : Bool
  i : Bool
  d : Bool
  b : Bool
  v : Bool
  n : Bool
deriving DecidableEq, Repr

/-- `Pack()` (10_state R27): `N V 1 B D I Z C`, bit 7 first. -/
def Flags.pack (f : Flags) : Byte :=
  BitVec.ofBool f.n ++ BitVec.ofBool f.v ++ 1#1 ++ BitVec.ofBool f.b
    ++ BitVec.ofBool f.d ++ BitVec.ofBool f.i ++ BitVec.ofBool f.z ++ BitVec.ofBool f.c

/-- `Unpack(b)` (10_state R28): bit 5 is ignored. -/
def Flags.unpack (p : Byte) : Flags where
  c := p.getLsbD 0
  z := p.getLsbD 1
  i := p.getLsbD 2
  d := p.getLsbD 3
  b := p.getLsbD 4
  v := p.getLsbD 6
  n := p.getLsbD 7

/-- `SetZN(v)` (00_scope R11). -/
def Flags.setZN (r : Byte) (f : Flags) : Flags := { f with z := r == 0, n := r.getLsbD 7 }

/-- The 8-bit sum of ADC (40_group01_alu R184). -/
def adcResult (a m : Byte) (c : Bool) : Byte := BitVec.ofNat 8 (a.toNat + m.toNat + c.toNat)

/-- The carry out of bit 7 of that sum (R184). -/
def adcCarry (a m : Byte) (c : Bool) : Bool := decide (a.toNat + m.toNat + c.toNat > 0xFF)

/-- "overflow is set when the two operands share a sign and the result's sign differs from theirs" (R184). -/
def adcOverflow (a m : Byte) (c : Bool) : Bool :=
  ((a ^^^ adcResult a m c) &&& (m ^^^ adcResult a m c) &&& 0x80) != 0

/-- The flags after ADC (R184): `C`, `V`, `Z`, `N` written. -/
def Flags.adc (a m : Byte) (f : Flags) : Flags :=
  { f with c := adcCarry a m f.c, v := adcOverflow a m f.c }.setZN (adcResult a m f.c)

/-- The flags after CMP, CPX, CPY of a register with a memory operand (40 R187, 42 R226, R227): unsigned comparison, `V` unchanged. -/
def Flags.compare (r m : Byte) (f : Flags) : Flags :=
  { f with c := decide (r.toNat ≥ m.toNat), z := r == m, n := (r - m).getLsbD 7 }

/-- The flags after BIT (42_group00_misc R221). -/
def Flags.bitTest (a m : Byte) (f : Flags) : Flags :=
  { f with z := (a &&& m) == 0, n := m.getLsbD 7, v := m.getLsbD 6 }

/-- ASL (41_group10_shift_x R201): the result and the flags. -/
def asl (v : Byte) (f : Flags) : Byte × Flags :=
  let r := v <<< 1
  (r, { f with c := v.getLsbD 7 }.setZN r)

/-- ROL (R202): rotate left through the carry. -/
def rol (v : Byte) (f : Flags) : Byte × Flags :=
  let r := (v <<< 1) ||| BitVec.ofNat 8 f.c.toNat
  (r, { f with c := v.getLsbD 7 }.setZN r)

/-- LSR (R203). -/
def lsr (v : Byte) (f : Flags) : Byte × Flags :=
  let r := v >>> 1
  (r, { f with c := v.getLsbD 0 }.setZN r)

/-- ROR (R204): rotate right through the carry. -/
def ror (v : Byte) (f : Flags) : Byte × Flags :=
  let r := (v >>> 1) ||| (BitVec.ofNat 8 f.c.toNat <<< 7)
  (r, { f with c := v.getLsbD 0 }.setZN r)

/-- INC (R208): no carry is recorded. -/
def incr (v : Byte) (f : Flags) : Byte × Flags := (v + 1, f.setZN (v + 1))

/-- DEC (R207). -/
def decr (v : Byte) (f : Flags) : Byte × Flags := (v - 1, f.setZN (v - 1))

end Sys2Proof.Machine
end

