-- ==== Sys2Proof/Config.lean ====
section
/-! DEFINITION. What one machine fixes (the parameters of 00_scope R6 that the spec leaves OPEN) and the free values. The parameters are plain
data that `State` carries and no step changes, so a claim about every state is a claim about every value of them. -/

namespace Sys2Proof

/-- FREE VALUE (log 6). The bit the n-th button read of the run gives where nothing states it: the ninth and later reads of a device
(`button(8)`, 20_memory R67, 93 U6), and every read for which the host supplied no sample (93 U7). It has no body: no value of it is provable. -/
opaque Config.buttonBit : Nat → Bool

/-- DUMMY_READ_POLICY, 30_encoding R158. -/
inductive DummyReadPolicy where
  /-- no extra access (the default) -/
  | never
  /-- one discarded read of the partial address when a page is crossed -/
  | onPageCross
  /-- one discarded read of the partial address on every ABX, ABY and IZY access -/
  | always
deriving DecidableEq, Repr

/-- SPRITE0_HIT_RULE, 61_picture_unit R392. -/
inductive Sprite0HitRule where
  /-- no rule sets the flag (the default) -/
  | never
  /-- an opaque pixel of OAM sprite 0 over an opaque background pixel sets it -/
  | opaqueOverlap
deriving DecidableEq, Repr

/-- One entry of UNDOC_NOP_TABLE, 45_undocumented_nops R300. Its cost is not a field: R300 fixes it at `length + 1`
(Machine/Nop.lean). -/
structure NopEntry where
  length : Nat
  readsOperand : Bool
deriving DecidableEq, Repr

/-- The OPEN parameters of 00_scope R6 that a step reads (10_state R43). -/
structure Params where
  /-- UNDOC_NOP_TABLE: pairs of an opcode and its entry; the first pair of an opcode counts -/
  undocNops : List (Byte × NopEntry)
  /-- DUMMY_READ_POLICY -/
  dummyRead : DummyReadPolicy
  /-- PPU_WARMUP_CYCLES, in processor cycles -/
  warmupCycles : Nat
  /-- SPRITE_EVAL_DOT, in 65..256 -/
  spriteEvalDot : Nat
  /-- SPRITE0_HIT_RULE -/
  sprite0Rule : Sprite0HitRule
  /-- BRK_PUSH_OFFSET, 2 or 1 -/
  brkPushOffset : Nat
deriving DecidableEq, Repr

end Sys2Proof
end

