-- ==== Sys2Proof/Machine/Input.lean ====
section
/-! DEFINITION. The two input devices (10_state R42, 20_memory R67) as the core's bus sees them. -/

namespace Sys2Proof.Machine

/-- One input device. `samples` is the host's input: the state of the eight buttons (bit `i` = button `i`: A, B, Select, Start, Up, Down, Left, Right)
sampled at each coming read, one sample a read, in order (log 6). -/
structure InputDevice where
  strobe : Bool
  /-- 0..8 -/
  cursor : Nat
  samples : List Byte
deriving DecidableEq, Repr

/-- Power-on (10_state R50). -/
def InputDevice.powerOn : InputDevice := { strobe := false, cursor := 0, samples := [] }

/-- `write(v)` (20_memory R67). -/
def InputDevice.write (d : InputDevice) (v : Byte) : InputDevice :=
  { d with strobe := v.getLsbD 0, cursor := if v.getLsbD 0 then 0 else d.cursor }

/-- `button(cursor)`: the sampled state, or a free value for `button(8)` and where the host gave no sample (R67). -/
def buttonState (samples : List Byte) (cursor drawn : Nat) : Bool :=
  match samples with
  | [] => Config.buttonBit drawn
  | b :: _ => if cursor < 8 then b.getLsbD cursor else Config.buttonBit drawn

/-- `read()` (R67): the byte, the device after it, and the count of free values after it. -/
def InputDevice.read (d : InputDevice) (drawn : Nat) : Byte × InputDevice × Nat :=
  let cursor := if d.strobe then 0 else d.cursor
  ((if buttonState d.samples cursor drawn then 1 else 0),
   { d with cursor := if d.strobe then 0 else if cursor < 8 then cursor + 1 else cursor, samples := d.samples.tail },
   drawn + 1)

end Sys2Proof.Machine
end

