-- ==== Sys2Proof/Syntax.lean ====
section
/-! DEFINITION. The instruction set: one constructor per row of spec/opcode_table.json (30_encoding R160, 45_undocumented_nops R301), and one more for
the members that a value of UNDOC_NOP_TABLE other than the default may have (R300). An operand is a byte (immediate `v`, zero-page address `a`,
zero-page pointer `p`, displacement `d`) or a 16-bit address, low byte first in memory (20_memory R72). -/

namespace Sys2Proof

/-- An instruction as the decoder reads it. -/
inductive Instr where
  -- Group 01 (40_group01_alu)
  /-- 01: ORA IZX (R181) -/
  | oraIzx (p : Byte)
  /-- 05: ORA ZP (R181) -/
  | oraZp (a : Byte)
  /-- 09: ORA IMM (R181) -/
  | oraImm (v : Byte)
  /-- 0D: ORA ABS (R181) -/
  | oraAbs (addr : Addr)
  /-- 11: ORA IZY (R181) -/
  | oraIzy (p : Byte)
  /-- 15: ORA ZPX (R181) -/
  | oraZpx (a : Byte)
  /-- 19: ORA ABY (R181) -/
  | oraAby (addr : Addr)
  /-- 1D: ORA ABX (R181) -/
  | oraAbx (addr : Addr)
  /-- 21: AND IZX (R182) -/
  | andIzx (p : Byte)
  /-- 25: AND ZP (R182) -/
  | andZp (a : Byte)
  /-- 29: AND IMM (R182) -/
  | andImm (v : Byte)
  /-- 2D: AND ABS (R182) -/
  | andAbs (addr : Addr)
  /-- 31: AND IZY (R182) -/
  | andIzy (p : Byte)
  /-- 35: AND ZPX (R182) -/
  | andZpx (a : Byte)
  /-- 39: AND ABY (R182) -/
  | andAby (addr : Addr)
  /-- 3D: AND ABX (R182) -/
  | andAbx (addr : Addr)
  /-- 41: EOR IZX (R183) -/
  | eorIzx (p : Byte)
  /-- 45: EOR ZP (R183) -/
  | eorZp (a : Byte)
  /-- 49: EOR IMM (R183) -/
  | eorImm (v : Byte)
  /-- 4D: EOR ABS (R183) -/
  | eorAbs (addr : Addr)
  /-- 51: EOR IZY (R183) -/
  | eorIzy (p : Byte)
  /-- 55: EOR ZPX (R183) -/
  | eorZpx (a : Byte)
  /-- 59: EOR ABY (R183) -/
  | eorAby (addr : Addr)
  /-- 5D: EOR ABX (R183) -/
  | eorAbx (addr : Addr)
  /-- 61: ADC IZX (R184) -/
  | adcIzx (p : Byte)
  /-- 65: ADC ZP (R184) -/
  | adcZp (a : Byte)
  /-- 69: ADC IMM (R184) -/
  | adcImm (v : Byte)
  /-- 6D: ADC ABS (R184) -/
  | adcAbs (addr : Addr)
  /-- 71: ADC IZY (R184) -/
  | adcIzy (p : Byte)
  /-- 75: ADC ZPX (R184) -/
  | adcZpx (a : Byte)
  /-- 79: ADC ABY (R184) -/
  | adcAby (addr : Addr)
  /-- 7D: ADC ABX (R184) -/
  | adcAbx (addr : Addr)
  /-- 81: STA IZX (R185) -/
  | staIzx (p : Byte)
  /-- 85: STA ZP (R185) -/
  | staZp (a : Byte)
  /-- 8D: STA ABS (R185) -/
  | staAbs (addr : Addr)
  /-- 91: STA IZY (R185) -/
  | staIzy (p : Byte)
  /-- 95: STA ZPX (R185) -/
  | staZpx (a : Byte)
  /-- 99: STA ABY (R185) -/
  | staAby (addr : Addr)
  /-- 9D: STA ABX (R185) -/
  | staAbx (addr : Addr)
  /-- A1: LDA IZX (R186) -/
  | ldaIzx (p : Byte)
  /-- A5: LDA ZP (R186) -/
  | ldaZp (a : Byte)
  /-- A9: LDA IMM (R186) -/
  | ldaImm (v : Byte)
  /-- AD: LDA ABS (R186) -/
  | ldaAbs (addr : Addr)
  /-- B1: LDA IZY (R186) -/
  | ldaIzy (p : Byte)
  /-- B5: LDA ZPX (R186) -/
  | ldaZpx (a : Byte)
  /-- B9: LDA ABY (R186) -/
  | ldaAby (addr : Addr)
  /-- BD: LDA ABX (R186) -/
  | ldaAbx (addr : Addr)
  /-- C1: CMP IZX (R187) -/
  | cmpIzx (p : Byte)
  /-- C5: CMP ZP (R187) -/
  | cmpZp (a : Byte)
  /-- C9: CMP IMM (R187) -/
  | cmpImm (v : Byte)
  /-- CD: CMP ABS (R187) -/
  | cmpAbs (addr : Addr)
  /-- D1: CMP IZY (R187) -/
  | cmpIzy (p : Byte)
  /-- D5: CMP ZPX (R187) -/
  | cmpZpx (a : Byte)
  /-- D9: CMP ABY (R187) -/
  | cmpAby (addr : Addr)
  /-- DD: CMP ABX (R187) -/
  | cmpAbx (addr : Addr)
  /-- E1: SBC IZX (R188) -/
  | sbcIzx (p : Byte)
  /-- E5: SBC ZP (R188) -/
  | sbcZp (a : Byte)
  /-- E9: SBC IMM (R188) -/
  | sbcImm (v : Byte)
  /-- ED: SBC ABS (R188) -/
  | sbcAbs (addr : Addr)
  /-- F1: SBC IZY (R188) -/
  | sbcIzy (p : Byte)
  /-- F5: SBC ZPX (R188) -/
  | sbcZpx (a : Byte)
  /-- F9: SBC ABY (R188) -/
  | sbcAby (addr : Addr)
  /-- FD: SBC ABX (R188) -/
  | sbcAbx (addr : Addr)
  -- Group 10 (41_group10_shift_x)
  /-- 06: ASL ZP (R201) -/
  | aslZp (a : Byte)
  /-- 0A: ASL ACC (R201) -/
  | aslAcc
  /-- 0E: ASL ABS (R201) -/
  | aslAbs (addr : Addr)
  /-- 16: ASL ZPX (R201) -/
  | aslZpx (a : Byte)
  /-- 1E: ASL ABX (R201) -/
  | aslAbx (addr : Addr)
  /-- 26: ROL ZP (R202) -/
  | rolZp (a : Byte)
  /-- 2A: ROL ACC (R202) -/
  | rolAcc
  /-- 2E: ROL ABS (R202) -/
  | rolAbs (addr : Addr)
  /-- 36: ROL ZPX (R202) -/
  | rolZpx (a : Byte)
  /-- 3E: ROL ABX (R202) -/
  | rolAbx (addr : Addr)
  /-- 46: LSR ZP (R203) -/
  | lsrZp (a : Byte)
  /-- 4A: LSR ACC (R203) -/
  | lsrAcc
  /-- 4E: LSR ABS (R203) -/
  | lsrAbs (addr : Addr)
  /-- 56: LSR ZPX (R203) -/
  | lsrZpx (a : Byte)
  /-- 5E: LSR ABX (R203) -/
  | lsrAbx (addr : Addr)
  /-- 66: ROR ZP (R204) -/
  | rorZp (a : Byte)
  /-- 6A: ROR ACC (R204) -/
  | rorAcc
  /-- 6E: ROR ABS (R204) -/
  | rorAbs (addr : Addr)
  /-- 76: ROR ZPX (R204) -/
  | rorZpx (a : Byte)
  /-- 7E: ROR ABX (R204) -/
  | rorAbx (addr : Addr)
  /-- 86: STX ZP (R205) -/
  | stxZp (a : Byte)
  /-- 8E: STX ABS (R205) -/
  | stxAbs (addr : Addr)
  /-- 96: STX ZPY (R205) -/
  | stxZpy (a : Byte)
  /-- A2: LDX IMM (R206) -/
  | ldxImm (v : Byte)
  /-- A6: LDX ZP (R206) -/
  | ldxZp (a : Byte)
  /-- AE: LDX ABS (R206) -/
  | ldxAbs (addr : Addr)
  /-- B6: LDX ZPY (R206) -/
  | ldxZpy (a : Byte)
  /-- BE: LDX ABY (R206) -/
  | ldxAby (addr : Addr)
  /-- C6: DEC ZP (R207) -/
  | decZp (a : Byte)
  /-- CE: DEC ABS (R207) -/
  | decAbs (addr : Addr)
  /-- D6: DEC ZPX (R207) -/
  | decZpx (a : Byte)
  /-- DE: DEC ABX (R207) -/
  | decAbx (addr : Addr)
  /-- E6: INC ZP (R208) -/
  | incZp (a : Byte)
  /-- EE: INC ABS (R208) -/
  | incAbs (addr : Addr)
  /-- F6: INC ZPX (R208) -/
  | incZpx (a : Byte)
  /-- FE: INC ABX (R208) -/
  | incAbx (addr : Addr)
  -- Group 00 (42_group00_misc)
  /-- 24: BIT ZP (R221) -/
  | bitZp (a : Byte)
  /-- 2C: BIT ABS (R221) -/
  | bitAbs (addr : Addr)
  /-- 4C: JMP ABS (R222) -/
  | jmpAbs (addr : Addr)
  /-- 6C: JMP IND (R223) -/
  | jmpInd (addr : Addr)
  /-- 84: STY ZP (R224) -/
  | styZp (a : Byte)
  /-- 8C: STY ABS (R224) -/
  | styAbs (addr : Addr)
  /-- 94: STY ZPX (R224) -/
  | styZpx (a : Byte)
  /-- A0: LDY IMM (R225) -/
  | ldyImm (v : Byte)
  /-- A4: LDY ZP (R225) -/
  | ldyZp (a : Byte)
  /-- AC: LDY ABS (R225) -/
  | ldyAbs (addr : Addr)
  /-- B4: LDY ZPX (R225) -/
  | ldyZpx (a : Byte)
  /-- BC: LDY ABX (R225) -/
  | ldyAbx (addr : Addr)
  /-- C0: CPY IMM (R226) -/
  | cpyImm (v : Byte)
  /-- C4: CPY ZP (R226) -/
  | cpyZp (a : Byte)
  /-- CC: CPY ABS (R226) -/
  | cpyAbs (addr : Addr)
  /-- E0: CPX IMM (R227) -/
  | cpxImm (v : Byte)
  /-- E4: CPX ZP (R227) -/
  | cpxZp (a : Byte)
  /-- EC: CPX ABS (R227) -/
  | cpxAbs (addr : Addr)
  -- Branches (43_branches)
  /-- 10: BPL REL (R241) -/
  | bpl (d : Byte)
  /-- 30: BMI REL (R242) -/
  | bmi (d : Byte)
  /-- 50: BVC REL (R243) -/
  | bvc (d : Byte)
  /-- 70: BVS REL (R244) -/
  | bvs (d : Byte)
  /-- 90: BCC REL (R245) -/
  | bcc (d : Byte)
  /-- B0: BCS REL (R246) -/
  | bcs (d : Byte)
  /-- D0: BNE REL (R247) -/
  | bne (d : Byte)
  /-- F0: BEQ REL (R248) -/
  | beq (d : Byte)
  -- One-byte instructions and JSR (44_single_byte)
  /-- 00: BRK IMP (R261) -/
  | brk
  /-- 20: JSR ABS (R262) -/
  | jsr (addr : Addr)
  /-- 40: RTI IMP (R263) -/
  | rti
  /-- 60: RTS IMP (R264) -/
  | rts
  /-- EA: NOP IMP (R286) -/
  | nop
  /-- 08: PHP IMP (R265) -/
  | php
  /-- 28: PLP IMP (R266) -/
  | plp
  /-- 48: PHA IMP (R267) -/
  | pha
  /-- 68: PLA IMP (R268) -/
  | pla
  /-- A8: TAY IMP (R270) -/
  | tay
  /-- 98: TYA IMP (R277) -/
  | tya
  /-- 8A: TXA IMP (R281) -/
  | txa
  /-- AA: TAX IMP (R283) -/
  | tax
  /-- 9A: TXS IMP (R282) -/
  | txs
  /-- BA: TSX IMP (R284) -/
  | tsx
  /-- 88: DEY IMP (R269) -/
  | dey
  /-- C8: INY IMP (R271) -/
  | iny
  /-- E8: INX IMP (R272) -/
  | inx
  /-- CA: DEX IMP (R285) -/
  | dex
  /-- 18: CLC IMP (R273) -/
  | clc
  /-- 38: SEC IMP (R274) -/
  | sec
  /-- 58: CLI IMP (R275) -/
  | cli
  /-- 78: SEI IMP (R276) -/
  | sei
  /-- B8: CLV IMP (R278) -/
  | clv
  /-- D8: CLD IMP (R279) -/
  | cld
  /-- F8: SED IMP (R280) -/
  | sed
  -- Undocumented no-operations (45_undocumented_nops)
  /-- 04: NOP* ZP (R302) -/
  | nopStar04 (operand : Byte)
  /-- 0C: NOP* ABS (R302) -/
  | nopStar0C (addr : Addr)
  /-- 1A: NOP* IMP (R302) -/
  | nopStar1A
  /-- 3A: NOP* IMP (R302) -/
  | nopStar3A
  /-- 44: NOP* ZP (R302) -/
  | nopStar44 (operand : Byte)
  /-- 5A: NOP* IMP (R302) -/
  | nopStar5A
  /-- 64: NOP* ZP (R302) -/
  | nopStar64 (operand : Byte)
  /-- 7A: NOP* IMP (R302) -/
  | nopStar7A
  /-- DA: NOP* IMP (R302) -/
  | nopStarDA
  /-- FA: NOP* IMP (R302) -/
  | nopStarFA
  /-- Any other member of UNDOC_NOP_TABLE: its opcode and its entry. Its operand bytes have no meaning and are not kept (R302). -/
  | nopStarOther (op : Byte) (e : NopEntry)
deriving DecidableEq, Repr

end Sys2Proof
end

