-- ==== Sys2Proof/Decode.lean ====
section
/-! DEFINITION. From bytes to instructions and back. The decoder reads the opcode map of 30_encoding R160 row by row; the encoder is written from the
encoding tables of the families (40 R180, 41 R200, 42 R220, 43, 44 R260, 45 R301). -/

namespace Sys2Proof

open Machine (word lo hi)

/-- What an opcode byte says: the instruction, up to the operand bytes it still needs (30_encoding R140, R142). -/
inductive Shape where
  /-- a one-byte instruction -/
  | one (i : Instr)
  /-- two bytes, the second one read as operand -/
  | two (f : Byte → Instr)
  /-- three bytes, the last two read as a 16-bit address, low byte first -/
  | three (f : Addr → Instr)
  /-- `n` operand bytes follow and are not read (45_undocumented_nops R302, `reads_operand` = 0) -/
  | unread (n : Nat) (i : Instr)

/-- Row 0x of the opcode map. -/
def opcodeRow0 : List (Option Shape) :=
  [some (.one .brk), some (.two .oraIzx), none, none,
   none, some (.two .oraZp), some (.two .aslZp), none,
   some (.one .php), some (.two .oraImm), some (.one .aslAcc), none,
   none, some (.three .oraAbs), some (.three .aslAbs), none]

/-- Row 1x of the opcode map. -/
def opcodeRow1 : List (Option Shape) :=
  [some (.two .bpl), some (.two .oraIzy), none, none,
   none, some (.two .oraZpx), some (.two .aslZpx), none,
   some (.one .clc), some (.three .oraAby), none, none,
   none, some (.three .oraAbx), some (.three .aslAbx), none]

/-- Row 2x of the opcode map. -/
def opcodeRow2 : List (Option Shape) :=
  [some (.three .jsr), some (.two .andIzx), none, none,
   some (.two .bitZp), some (.two .andZp), some (.two .rolZp), none,
   some (.one .plp), some (.two .andImm), some (.one .rolAcc), none,
   some (.three .bitAbs), some (.three .andAbs), some (.three .rolAbs), none]

/-- Row 3x of the opcode map. -/
def opcodeRow3 : List (Option Shape) :=
  [some (.two .bmi), some (.two .andIzy), none, none,
   none, some (.two .andZpx), some (.two .rolZpx), none,
   some (.one .sec), some (.three .andAby), none, none,
   none, some (.three .andAbx), some (.three .rolAbx), none]

/-- Row 4x of the opcode map. -/
def opcodeRow4 : List (Option Shape) :=
  [some (.one .rti), some (.two .eorIzx), none, none,
   none, some (.two .eorZp), some (.two .lsrZp), none,
   some (.one .pha), some (.two .eorImm), some (.one .lsrAcc), none,
   some (.three .jmpAbs), some (.three .eorAbs), some (.three .lsrAbs), none]

/-- Row 5x of the opcode map. -/
def opcodeRow5 : List (Option Shape) :=
  [some (.two .bvc), some (.two .eorIzy), none, none,
   none, some (.two .eorZpx), some (.two .lsrZpx), none,
   some (.one .cli), some (.three .eorAby), none, none,
   none, some (.three .eorAbx), some (.three .lsrAbx), none]

/-- Row 6x of the opcode map. -/
def opcodeRow6 : List (Option Shape) :=
  [some (.one .rts), some (.two .adcIzx), none, none,
   none, some (.two .adcZp), some (.two .rorZp), none,
   some (.one .pla), some (.two .adcImm), some (.one .rorAcc), none,
   some (.three .jmpInd), some (.three .adcAbs), some (.three .rorAbs), none]

/-- Row 7x of the opcode map. -/
def opcodeRow7 : List (Option Shape) :=
  [some (.two .bvs), some (.two .adcIzy), none, none,
   none, some (.two .adcZpx), some (.two .rorZpx), none,
   some (.one .sei), some (.three .adcAby), none, none,
   none, some (.three .adcAbx), some (.three .rorAbx), none]

/-- Row 8x of the opcode map. -/
def opcodeRow8 : List (Option Shape) :=
  [none, some (.two .staIzx), none, none,
   some (.two .styZp), some (.two .staZp), some (.two .stxZp), none,
   some (.one .dey), none, some (.one .txa), none,
   some (.three .styAbs), some (.three .staAbs), some (.three .stxAbs), none]

/-- Row 9x of the opcode map. -/
def opcodeRow9 : List (Option Shape) :=
  [some (.two .bcc), some (.two .staIzy), none, none,
   some (.two .styZpx), some (.two .staZpx), some (.two .stxZpy), none,
   some (.one .tya), some (.three .staAby), some (.one .txs), none,
   none, some (.three .staAbx), none, none]

/-- Row Ax of the opcode map. -/
def opcodeRowA : List (Option Shape) :=
  [some (.two .ldyImm), some (.two .ldaIzx), some (.two .ldxImm), none,
   some (.two .ldyZp), some (.two .ldaZp), some (.two .ldxZp), none,
   some (.one .tay), some (.two .ldaImm), some (.one .tax), none,
   some (.three .ldyAbs), some (.three .ldaAbs), some (.three .ldxAbs), none]

/-- Row Bx of the opcode map. -/
def opcodeRowB : List (Option Shape) :=
  [some (.two .bcs), some (.two .ldaIzy), none, none,
   some (.two .ldyZpx), some (.two .ldaZpx), some (.two .ldxZpy), none,
   some (.one .clv), some (.three .ldaAby), some (.one .tsx), none,
   some (.three .ldyAbx), some (.three .ldaAbx), some (.three .ldxAby), none]

/-- Row Cx of the opcode map. -/
def opcodeRowC : List (Option Shape) :=
  [some (.two .cpyImm), some (.two .cmpIzx), none, none,
   some (.two .cpyZp), some (.two .cmpZp), some (.two .decZp), none,
   some (.one .iny), some (.two .cmpImm), some (.one .dex), none,
   some (.three .cpyAbs), some (.three .cmpAbs), some (.three .decAbs), none]

/-- Row Dx of the opcode map. -/
def opcodeRowD : List (Option Shape) :=
  [some (.two .bne), some (.two .cmpIzy), none, none,
   none, some (.two .cmpZpx), some (.two .decZpx), none,
   some (.one .cld), some (.three .cmpAby), none, none,
   none, some (.three .cmpAbx), some (.three .decAbx), none]

/-- Row Ex of the opcode map. -/
def opcodeRowE : List (Option Shape) :=
  [some (.two .cpxImm), some (.two .sbcIzx), none, none,
   some (.two .cpxZp), some (.two .sbcZp), some (.two .incZp), none,
   some (.one .inx), some (.two .sbcImm), some (.one .nop), none,
   some (.three .cpxAbs), some (.three .sbcAbs), some (.three .incAbs), none]

/-- Row Fx of the opcode map. -/
def opcodeRowF : List (Option Shape) :=
  [some (.two .beq), some (.two .sbcIzy), none, none,
   none, some (.two .sbcZpx), some (.two .incZpx), none,
   some (.one .sed), some (.three .sbcAby), none, none,
   none, some (.three .sbcAbx), some (.three .incAbx), none]

/-- The opcode map of 30_encoding R160, documented instructions only: row = high nibble, column = low nibble. -/
def opcodeMap : List (List (Option Shape)) :=
  [opcodeRow0, opcodeRow1, opcodeRow2, opcodeRow3, opcodeRow4, opcodeRow5, opcodeRow6, opcodeRow7]
    ++ [opcodeRow8, opcodeRow9, opcodeRowA, opcodeRowB, opcodeRowC, opcodeRowD, opcodeRowE, opcodeRowF]

/-- R159 case (1): the documented instruction at an opcode. -/
def documentedShape (op : Byte) : Option Shape :=
  ((opcodeMap.getD (op.toNat / 16) []).getD (op.toNat % 16) none)

/-- The default UNDOC_NOP_TABLE of 45_undocumented_nops R301. -/
def defaultNops : List (Byte × NopEntry) :=
  [(0x1A, ⟨1, false⟩), (0x3A, ⟨1, false⟩), (0x5A, ⟨1, false⟩), (0x7A, ⟨1, false⟩), (0xDA, ⟨1, false⟩),
   (0xFA, ⟨1, false⟩), (0x04, ⟨2, true⟩), (0x44, ⟨2, true⟩), (0x64, ⟨2, true⟩), (0x0C, ⟨3, true⟩)]

/-- The rows of spec/opcode_table.json for the default table: each opcode's own constructor. -/
def defaultNopShapes : List (Byte × Shape) :=
  [(0x1A, .one .nopStar1A), (0x3A, .one .nopStar3A), (0x5A, .one .nopStar5A), (0x7A, .one .nopStar7A), (0xDA, .one .nopStarDA),
   (0xFA, .one .nopStarFA), (0x04, .two .nopStar04), (0x44, .two .nopStar44), (0x64, .two .nopStar64), (0x0C, .three .nopStar0C)]

/-- The member of UNDOC_NOP_TABLE that an opcode and its entry name: the row's constructor where they are the default table's, else the general one.
Whether its operand bytes are read is the entry's to say (R302). -/
def nopShape (op : Byte) (e : NopEntry) : Shape :=
  match defaultNops.lookup op == some e, defaultNopShapes.lookup op with
  | true, some sh => sh
  | _, _ =>
    match e.readsOperand, e.length with
    | true, 2 => .two fun _ => .nopStarOther op e
    | true, 3 => .three fun _ => .nopStarOther op e
    | _, n => .unread (n - 1) (.nopStarOther op e)

/-- The decode of 30_encoding R159: a documented instruction, else a member of UNDOC_NOP_TABLE, else nothing. -/
def shapeOf (nops : List (Byte × NopEntry)) (op : Byte) : Option Shape :=
  match documentedShape op with
  | some sh => some sh
  | none => (nops.lookup op).map (nopShape op)

/-- Why a list of bytes is no instruction. -/
inductive Reject where
  /-- there is no byte -/
  | empty
  /-- R159 case (3): the opcode decodes to nothing -/
  | illegal (op : Byte)
  /-- the bytes end before the operand of a legal opcode does -/
  | truncated (op : Byte)
deriving DecidableEq, Repr

/-- The instruction a list of bytes begins with, and the bytes after it. -/
def decode (nops : List (Byte × NopEntry)) : List Byte → Except Reject (Instr × List Byte)
  | [] => .error .empty
  | op :: rest =>
    match shapeOf nops op, rest with
    | none, _ => .error (.illegal op)
    | some (.one i), rest => .ok (i, rest)
    | some (.two f), b1 :: rest => .ok (f b1, rest)
    | some (.three f), b1 :: b2 :: rest => .ok (f (word b2 b1), rest)
    | some (.unread n i), rest => if n ≤ rest.length then .ok (i, rest.drop n) else .error (.truncated op)
    | some (.two _), [] => .error (.truncated op)
    | some (.three _), [] => .error (.truncated op)
    | some (.three _), [_] => .error (.truncated op)

/-- The first three bytes of the number an opcode-table word is, first byte in the low bits, every bit from `nbits` on zero. -/
def tableBytes (nbits w : Nat) : List Byte :=
  let v := w % 2 ^ nbits
  [BitVec.ofNat 8 v, BitVec.ofNat 8 (v / 256), BitVec.ofNat 8 (v / 65536)]

/-- The instruction the decoder reads from the bytes of an opcode-table word, with the default UNDOC_NOP_TABLE. -/
def decodeTableWord (nbits w : Nat) : Option Instr :=
  match decode defaultNops (tableBytes nbits w) with
  | .ok (i, _) => some i
  | .error _ => none

/-- The opcode byte of each instruction, from the encoding tables of the families. -/
def opcode : Instr → Byte
  -- Group 01 (40_group01_alu)
  | .oraIzx _ => 0x01
  | .oraZp _ => 0x05
  | .oraImm _ => 0x09
  | .oraAbs _ => 0x0D
  | .oraIzy _ => 0x11
  | .oraZpx _ => 0x15
  | .oraAby _ => 0x19
  | .oraAbx _ => 0x1D
  | .andIzx _ => 0x21
  | .andZp _ => 0x25
  | .andImm _ => 0x29
  | .andAbs _ => 0x2D
  | .andIzy _ => 0x31
  | .andZpx _ => 0x35
  | .andAby _ => 0x39
  | .andAbx _ => 0x3D
  | .eorIzx _ => 0x41
  | .eorZp _ => 0x45
  | .eorImm _ => 0x49
  | .eorAbs _ => 0x4D
  | .eorIzy _ => 0x51
  | .eorZpx _ => 0x55
  | .eorAby _ => 0x59
  | .eorAbx _ => 0x5D
  | .adcIzx _ => 0x61
  | .adcZp _ => 0x65
  | .adcImm _ => 0x69
  | .adcAbs _ => 0x6D
  | .adcIzy _ => 0x71
  | .adcZpx _ => 0x75
  | .adcAby _ => 0x79
  | .adcAbx _ => 0x7D
  | .staIzx _ => 0x81
  | .staZp _ => 0x85
  | .staAbs _ => 0x8D
  | .staIzy _ => 0x91
  | .staZpx _ => 0x95
  | .staAby _ => 0x99
  | .staAbx _ => 0x9D
  | .ldaIzx _ => 0xA1
  | .ldaZp _ => 0xA5
  | .ldaImm _ => 0xA9
  | .ldaAbs _ => 0xAD
  | .ldaIzy _ => 0xB1
  | .ldaZpx _ => 0xB5
  | .ldaAby _ => 0xB9
  | .ldaAbx _ => 0xBD
  | .cmpIzx _ => 0xC1
  | .cmpZp _ => 0xC5
  | .cmpImm _ => 0xC9
  | .cmpAbs _ => 0xCD
  | .cmpIzy _ => 0xD1
  | .cmpZpx _ => 0xD5
  | .cmpAby _ => 0xD9
  | .cmpAbx _ => 0xDD
  | .sbcIzx _ => 0xE1
  | .sbcZp _ => 0xE5
  | .sbcImm _ => 0xE9
  | .sbcAbs _ => 0xED
  | .sbcIzy _ => 0xF1
  | .sbcZpx _ => 0xF5
  | .sbcAby _ => 0xF9
  | .sbcAbx _ => 0xFD
  -- Group 10 (41_group10_shift_x)
  | .aslZp _ => 0x06
  | .aslAcc => 0x0A
  | .aslAbs _ => 0x0E
  | .aslZpx _ => 0x16
  | .aslAbx _ => 0x1E
  | .rolZp _ => 0x26
  | .rolAcc => 0x2A
  | .rolAbs _ => 0x2E
  | .rolZpx _ => 0x36
  | .rolAbx _ => 0x3E
  | .lsrZp _ => 0x46
  | .lsrAcc => 0x4A
  | .lsrAbs _ => 0x4E
  | .lsrZpx _ => 0x56
  | .lsrAbx _ => 0x5E
  | .rorZp _ => 0x66
  | .rorAcc => 0x6A
  | .rorAbs _ => 0x6E
  | .rorZpx _ => 0x76
  | .rorAbx _ => 0x7E
  | .stxZp _ => 0x86
  | .stxAbs _ => 0x8E
  | .stxZpy _ => 0x96
  | .ldxImm _ => 0xA2
  | .ldxZp _ => 0xA6
  | .ldxAbs _ => 0xAE
  | .ldxZpy _ => 0xB6
  | .ldxAby _ => 0xBE
  | .decZp _ => 0xC6
  | .decAbs _ => 0xCE
  | .decZpx _ => 0xD6
  | .decAbx _ => 0xDE
  | .incZp _ => 0xE6
  | .incAbs _ => 0xEE
  | .incZpx _ => 0xF6
  | .incAbx _ => 0xFE
  -- Group 00 (42_group00_misc)
  | .bitZp _ => 0x24
  | .bitAbs _ => 0x2C
  | .jmpAbs _ => 0x4C
  | .jmpInd _ => 0x6C
  | .styZp _ => 0x84
  | .styAbs _ => 0x8C
  | .styZpx _ => 0x94
  | .ldyImm _ => 0xA0
  | .ldyZp _ => 0xA4
  | .ldyAbs _ => 0xAC
  | .ldyZpx _ => 0xB4
  | .ldyAbx _ => 0xBC
  | .cpyImm _ => 0xC0
  | .cpyZp _ => 0xC4
  | .cpyAbs _ => 0xCC
  | .cpxImm _ => 0xE0
  | .cpxZp _ => 0xE4
  | .cpxAbs _ => 0xEC
  -- Branches (43_branches)
  | .bpl _ => 0x10
  | .bmi _ => 0x30
  | .bvc _ => 0x50
  | .bvs _ => 0x70
  | .bcc _ => 0x90
  | .bcs _ => 0xB0
  | .bne _ => 0xD0
  | .beq _ => 0xF0
  -- One-byte instructions and JSR (44_single_byte)
  | .brk => 0x00
  | .jsr _ => 0x20
  | .rti => 0x40
  | .rts => 0x60
  | .nop => 0xEA
  | .php => 0x08
  | .plp => 0x28
  | .pha => 0x48
  | .pla => 0x68
  | .tay => 0xA8
  | .tya => 0x98
  | .txa => 0x8A
  | .tax => 0xAA
  | .txs => 0x9A
  | .tsx => 0xBA
  | .dey => 0x88
  | .iny => 0xC8
  | .inx => 0xE8
  | .dex => 0xCA
  | .clc => 0x18
  | .sec => 0x38
  | .cli => 0x58
  | .sei => 0x78
  | .clv => 0xB8
  | .cld => 0xD8
  | .sed => 0xF8
  -- Undocumented no-operations (45_undocumented_nops)
  | .nopStar04 _ => 0x04
  | .nopStar0C _ => 0x0C
  | .nopStar1A => 0x1A
  | .nopStar3A => 0x3A
  | .nopStar44 _ => 0x44
  | .nopStar5A => 0x5A
  | .nopStar64 _ => 0x64
  | .nopStar7A => 0x7A
  | .nopStarDA => 0xDA
  | .nopStarFA => 0xFA
  | .nopStarOther op _ => op

/-- The operand bytes that follow the opcode, low byte of an address first (20_memory R72). The unused operand bytes of a general `NOP*` may hold any
value (R302); the encoder writes zeros. -/
def operandBytes : Instr → List Byte
  | .oraIzx p => [p]
  | .oraZp a => [a]
  | .oraImm v => [v]
  | .oraAbs addr => [lo addr, hi addr]
  | .oraIzy p => [p]
  | .oraZpx a => [a]
  | .oraAby addr => [lo addr, hi addr]
  | .oraAbx addr => [lo addr, hi addr]
  | .andIzx p => [p]
  | .andZp a => [a]
  | .andImm v => [v]
  | .andAbs addr => [lo addr, hi addr]
  | .andIzy p => [p]
  | .andZpx a => [a]
  | .andAby addr => [lo addr, hi addr]
  | .andAbx addr => [lo addr, hi addr]
  | .eorIzx p => [p]
  | .eorZp a => [a]
  | .eorImm v => [v]
  | .eorAbs addr => [lo addr, hi addr]
  | .eorIzy p => [p]
  | .eorZpx a => [a]
  | .eorAby addr => [lo addr, hi addr]
  | .eorAbx addr => [lo addr, hi addr]
  | .adcIzx p => [p]
  | .adcZp a => [a]
  | .adcImm v => [v]
  | .adcAbs addr => [lo addr, hi addr]
  | .adcIzy p => [p]
  | .adcZpx a => [a]
  | .adcAby addr => [lo addr, hi addr]
  | .adcAbx addr => [lo addr, hi addr]
  | .staIzx p => [p]
  | .staZp a => [a]
  | .staAbs addr => [lo addr, hi addr]
  | .staIzy p => [p]
  | .staZpx a => [a]
  | .staAby addr => [lo addr, hi addr]
  | .staAbx addr => [lo addr, hi addr]
  | .ldaIzx p => [p]
  | .ldaZp a => [a]
  | .ldaImm v => [v]
  | .ldaAbs addr => [lo addr, hi addr]
  | .ldaIzy p => [p]
  | .ldaZpx a => [a]
  | .ldaAby addr => [lo addr, hi addr]
  | .ldaAbx addr => [lo addr, hi addr]
  | .cmpIzx p => [p]
  | .cmpZp a => [a]
  | .cmpImm v => [v]
  | .cmpAbs addr => [lo addr, hi addr]
  | .cmpIzy p => [p]
  | .cmpZpx a => [a]
  | .cmpAby addr => [lo addr, hi addr]
  | .cmpAbx addr => [lo addr, hi addr]
  | .sbcIzx p => [p]
  | .sbcZp a => [a]
  | .sbcImm v => [v]
  | .sbcAbs addr => [lo addr, hi addr]
  | .sbcIzy p => [p]
  | .sbcZpx a => [a]
  | .sbcAby addr => [lo addr, hi addr]
  | .sbcAbx addr => [lo addr, hi addr]
  | .aslZp a => [a]
  | .aslAcc => []
  | .aslAbs addr => [lo addr, hi addr]
  | .aslZpx a => [a]
  | .aslAbx addr => [lo addr, hi addr]
  | .rolZp a => [a]
  | .rolAcc => []
  | .rolAbs addr => [lo addr, hi addr]
  | .rolZpx a => [a]
  | .rolAbx addr => [lo addr, hi addr]
  | .lsrZp a => [a]
  | .lsrAcc => []
  | .lsrAbs addr => [lo addr, hi addr]
  | .lsrZpx a => [a]
  | .lsrAbx addr => [lo addr, hi addr]
  | .rorZp a => [a]
  | .rorAcc => []
  | .rorAbs addr => [lo addr, hi addr]
  | .rorZpx a => [a]
  | .rorAbx addr => [lo addr, hi addr]
  | .stxZp a => [a]
  | .stxAbs addr => [lo addr, hi addr]
  | .stxZpy a => [a]
  | .ldxImm v => [v]
  | .ldxZp a => [a]
  | .ldxAbs addr => [lo addr, hi addr]
  | .ldxZpy a => [a]
  | .ldxAby addr => [lo addr, hi addr]
  | .decZp a => [a]
  | .decAbs addr => [lo addr, hi addr]
  | .decZpx a => [a]
  | .decAbx addr => [lo addr, hi addr]
  | .incZp a => [a]
  | .incAbs addr => [lo addr, hi addr]
  | .incZpx a => [a]
  | .incAbx addr => [lo addr, hi addr]
  | .bitZp a => [a]
  | .bitAbs addr => [lo addr, hi addr]
  | .jmpAbs addr => [lo addr, hi addr]
  | .jmpInd addr => [lo addr, hi addr]
  | .styZp a => [a]
  | .styAbs addr => [lo addr, hi addr]
  | .styZpx a => [a]
  | .ldyImm v => [v]
  | .ldyZp a => [a]
  | .ldyAbs addr => [lo addr, hi addr]
  | .ldyZpx a => [a]
  | .ldyAbx addr => [lo addr, hi addr]
  | .cpyImm v => [v]
  | .cpyZp a => [a]
  | .cpyAbs addr => [lo addr, hi addr]
  | .cpxImm v => [v]
  | .cpxZp a => [a]
  | .cpxAbs addr => [lo addr, hi addr]
  | .bpl d => [d]
  | .bmi d => [d]
  | .bvc d => [d]
  | .bvs d => [d]
  | .bcc d => [d]
  | .bcs d => [d]
  | .bne d => [d]
  | .beq d => [d]
  | .brk => []
  | .jsr addr => [lo addr, hi addr]
  | .rti => []
  | .rts => []
  | .nop => []
  | .php => []
  | .plp => []
  | .pha => []
  | .pla => []
  | .tay => []
  | .tya => []
  | .txa => []
  | .tax => []
  | .txs => []
  | .tsx => []
  | .dey => []
  | .iny => []
  | .inx => []
  | .dex => []
  | .clc => []
  | .sec => []
  | .cli => []
  | .sei => []
  | .clv => []
  | .cld => []
  | .sed => []
  | .nopStar04 operand => [operand]
  | .nopStar0C addr => [lo addr, hi addr]
  | .nopStar1A => []
  | .nopStar3A => []
  | .nopStar44 operand => [operand]
  | .nopStar5A => []
  | .nopStar64 operand => [operand]
  | .nopStar7A => []
  | .nopStarDA => []
  | .nopStarFA => []
  | .nopStarOther _ e => List.replicate (e.length - 1) 0

/-- The bytes of an instruction (30_encoding R140). -/
def encode (i : Instr) : List Byte := opcode i :: operandBytes i

/-- The length of an instruction in bytes (30_encoding R142). -/
def Instr.length (i : Instr) : Nat := (encode i).length

end Sys2Proof
end

