-- ==== Sys2Proof/Machine/Params.lean ====
section
/-! DEFINITION. The values this machine takes for what the spec fixes or gives a default for (00_scope R6). -/

namespace Sys2Proof.Machine

/-- The defaults of the OPEN parameters (00_scope R6; log 5). -/
def defaultParams : Params where
  undocNops := defaultNops
  dummyRead := .never
  warmupCycles := 29658
  spriteEvalDot := 256
  sprite0Rule := .never
  brkPushOffset := 2

/-- RESET_SP. -/
def resetSp : Byte := 0xFD

/-- RESET_CYCLES. -/
def resetCycles : Nat := 0

/-- RESET_VECTOR (20_memory R70). -/
def resetVector : Addr := 0xFFFC

/-- NMI_VECTOR. -/
def nmiVector : Addr := 0xFFFA

/-- IRQ_BRK_VECTOR. -/
def brkVector : Addr := 0xFFFE

/-- NMI_ENTRY_CYCLES. -/
def nmiEntryCycles : Nat := 7

/-- CPU_PPU_RATIO. -/
def dotsPerCycle : Nat := 3

end Sys2Proof.Machine
end

