-- ==== Sys2Proof/Machine/PpuState.lean ====
section
/-! DEFINITION. The picture unit's own state (10_state R35, R36, R38, R39), its power-on value (R48), and the callbacks it invokes (61_picture_unit R400,
R404). -/

namespace Sys2Proof.Machine

/-- One sprite slot (10_state R39): the two bitplane shift registers, the x counter, the attribute byte. -/
structure Slot where
  lo : Byte
  hi : Byte
  x : Byte
  attr : Byte
deriving DecidableEq, Repr

/-- A slot that shows nothing. -/
def Slot.empty : Slot := { lo := 0, hi := 0, x := 0, attr := 0 }

/-- The state the picture unit owns. -/
structure Ppu where
  /-- −1..260, −1 = prerender (R35) -/
  scanline : Int
  /-- 0..340 -/
  dot : Nat
  frame : Nat
  ctrl : Byte
  mask : Byte
  vblank : Bool
  sprite0Hit : Bool
  spriteOverflow : Bool
  /-- the last value written to any of the eight registers -/
  lastWrite : Byte
  oamAddr : Byte
  /-- the shared write-twice toggle -/
  w : Bool
  scrollX : Byte
  scrollY : Byte
  vramAddr : Addr
  oam : Memory
  secondaryOam : Memory
  palette : Memory
  nametable : Memory
  slots : Vector Slot 8
  /-- how many slots are loaded for the line being drawn -/
  sprCount : Nat
  /-- how many sprites secondary OAM holds for the next line -/
  secCount : Nat
  /-- whether slot 0 holds OAM sprite 0 -/
  spr0InSlot0 : Bool
  /-- whether secondary OAM's first sprite is OAM sprite 0 -/
  secHasSpr0 : Bool
deriving DecidableEq, Repr

/-- The power-on value (10_state R48, decision D24; log 3). -/
def Ppu.powerOn : Ppu where
  scanline := 0
  dot := 0
  frame := 0
  ctrl := 0
  mask := 0
  vblank := false
  sprite0Hit := false
  spriteOverflow := false
  lastWrite := 0
  oamAddr := 0
  w := false
  scrollX := 0
  scrollY := 0
  vramAddr := 0
  oam := []
  secondaryOam := []
  palette := []
  nametable := []
  slots := #v[Slot.empty, Slot.empty, Slot.empty, Slot.empty, Slot.empty, Slot.empty, Slot.empty, Slot.empty]
  sprCount := 0
  secCount := 0
  spr0InSlot0 := false
  secHasSpr0 := false

/-- A host output of one round (log 8). The pixel is the 6-bit value `c` of R399; the colour it stands for is the host's PALETTE_RGB (log 9). -/
inductive Event where
  /-- the pixel-sink callback (R400) -/
  | pixel (x y : Nat) (c : BitVec 6)
  /-- the frame-complete callback (R404) -/
  | frameComplete
deriving DecidableEq, Repr

end Sys2Proof.Machine
end

