-- ==== Sys2Proof/Machine/State.lean ====
section
/-! DEFINITION. The state of the machine, the reasons a step can stop, and the state after reset. Fields follow 10_state; see INVENTORY.md. -/

namespace Sys2Proof.Machine

/-- The machine. Each part has one owner (10_state R44): the processor owns `ram`, the picture unit `ppu`, the mapper `cart`. -/
structure State where
  /-- accumulator (R20) -/
  a : Byte
  /-- index register X (R20) -/
  x : Byte
  /-- index register Y (R20) -/
  y : Byte
  /-- stack pointer (R22) -/
  sp : Byte
  /-- program counter (R21) -/
  pc : Addr
  /-- the seven status flags (R23) -/
  flags : Flags
  /-- the NMI latch (R30) -/
  nmiPending : Bool
  /-- the cumulative cycle counter (R31) -/
  cycles : Nat
  /-- the halted mark: the program counter and opcode of a fatal decode error (R32) -/
  halted : Option (Addr × Byte)
  /-- processor RAM, 2048 bytes (R33) -/
  ram : Memory
  /-- the picture unit (R35 to R39) -/
  ppu : Ppu
  /-- the cartridge and its mapper (R40, R41) -/
  cart : Cart
  /-- the input device read at 0x4016 (R42) -/
  input1 : InputDevice
  /-- the input device read at 0x4017 (R42) -/
  input2 : InputDevice
  /-- configuration: the OPEN parameters (R43); no step changes them -/
  params : Params
  /-- the model's own: how many free values have been drawn (log 6) -/
  drawn : Nat
  /-- the model's own: the callbacks of the last round, oldest first (log 8) -/
  events : List Event
deriving DecidableEq, Repr

/-- Why a step has no next state. -/
inductive Fault where
  /-- The machine is halted: a fatal decode error at `pc` on `opcode` has ended the run (60_exceptions R310, R313: "the step relation has no successor
  from it"). Raised by `step` alone, in every state whose `halted` is set. Safe: the hardware stands still there. -/
  | halted (pc : Addr) (opcode : Byte)
deriving DecidableEq, Repr

/-- Why the model gives an instruction no meaning. -/
inductive Refusal where
  /-- The instruction of this mnemonic has no meaning in the model. Raised by no arm of `exec`: every instruction has its meaning. Safe. -/
  | notModelled (mnemonic : String)
deriving DecidableEq, Repr

/-- The flags right after power-on and `reset()`: InterruptDisable and Break set (10_state R46), the rest 0 (R47, decision D8; log 2). -/
def resetFlags : Flags := { c := false, z := false, i := true, d := false, b := true, v := false, n := false }

/-- The placeholder cartridge of `State.reset` (log 1): the spec gives no cartridge; this is the one its test vectors start from (95_test_vectors,
conventions), fixed-bank, 32 KB of program ROM all zero, and one bank of graphics RAM. -/
def resetImage : Image := { prgBanks := 2, chrBanks := 0, mapperId := 0, mirroring := .horizontal, prg := [] }

/-- That cartridge as load leaves it. -/
def resetCart : Cart := resetImage.insert .fixedBank []

/-- The machine built around a cartridge, before `reset()` runs (70 R421 (2), (3); 10_state R47 to R50). `pc`, `sp`, `i` and `b` are what `reset()`
sets next, so their values here are seen by nothing. -/
def State.built (cart : Cart) (params : Params) (ramInit : Memory) : State where
  a := 0
  x := 0
  y := 0
  sp := resetSp
  pc := 0
  flags := resetFlags
  nmiPending := false
  cycles := resetCycles
  halted := none
  ram := ramInit
  ppu := Ppu.powerOn
  cart := cart
  input1 := InputDevice.powerOn
  input2 := InputDevice.powerOn
  params := params
  drawn := 0
  events := []

/-- The machine right after power-on and `reset()` (10_state R46 to R50; 70 R420, R421), with the placeholder cartridge, the default parameters and
RAM_INIT all zero: `pc` is the cartridge's reset vector, low byte at 0xFFFC. Ops.lean's `powerOn` builds the same for any cartridge. -/
def State.reset : State :=
  { State.built resetCart defaultParams [] with
    pc := word (resetCart.cpuRead (resetVector + 1)) (resetCart.cpuRead resetVector) }

end Sys2Proof.Machine
end

