-- ==== Sys2Proof/Machine/Update.lean ====
section
/-! DEFINITION. The named updates of the state, one per field (`params` has none: no step changes it). Laws/State.lean says what each leaves alone. -/

namespace Sys2Proof.Machine

def State.setA (s : State) (v : Byte) : State := { s with a := v }
def State.setX (s : State) (v : Byte) : State := { s with x := v }
def State.setY (s : State) (v : Byte) : State := { s with y := v }
def State.setSp (s : State) (v : Byte) : State := { s with sp := v }
def State.setPc (s : State) (v : Addr) : State := { s with pc := v }
def State.setFlags (s : State) (v : Flags) : State := { s with flags := v }
def State.setNmiPending (s : State) (v : Bool) : State := { s with nmiPending := v }
def State.setCycles (s : State) (v : Nat) : State := { s with cycles := v }
def State.setHalted (s : State) (v : Option (Addr × Byte)) : State := { s with halted := v }
def State.setRam (s : State) (v : Memory) : State := { s with ram := v }
def State.setPpu (s : State) (v : Ppu) : State := { s with ppu := v }
def State.setCart (s : State) (v : Cart) : State := { s with cart := v }
def State.setInput1 (s : State) (v : InputDevice) : State := { s with input1 := v }
def State.setInput2 (s : State) (v : InputDevice) : State := { s with input2 := v }
def State.setDrawn (s : State) (v : Nat) : State := { s with drawn := v }
def State.setEvents (s : State) (v : List Event) : State := { s with events := v }

end Sys2Proof.Machine
end

