-- ==== Sys2Proof/Machine/PpuBus.lean ====
section
/-! DEFINITION. The picture unit's bus (20_memory R84 to R86) and its eight registers as the processor reaches them (61_picture_unit R356 to R371). -/

namespace Sys2Proof.Machine

/-- What a picture-unit bus address reaches (20_memory R84). -/
inductive PpuCell where
  /-- a pattern-table address, 0x0000 to 0x1FFF -/
  | pattern (a : Nat)
  /-- an index of nametable RAM -/
  | nametable (i : Nat)
  /-- an index of palette RAM -/
  | palette (i : Nat)
deriving DecidableEq, Repr

/-- `PalIndex(a)`: 32 entries, four of them aliases (20_memory R85). -/
def palIndex (a : Nat) : Nat :=
  let i := a % 0x20
  if i = 0x10 ∨ i = 0x14 ∨ i = 0x18 ∨ i = 0x1C then i - 0x10 else i

/-- The decode of the picture-unit space: 14 bits, 0x3000 to 0x3EFF mirroring 0x2000 to 0x2EFF (20_memory R84, R86). -/
def ppuCell (c : Cart) (a : Addr) : PpuCell :=
  let m := a.toNat % 0x4000
  if m < 0x2000 then .pattern m
  else if m < 0x3000 then .nametable (c.mirror m)
  else if m < 0x3F00 then .nametable (c.mirror (m - 0x1000))
  else .palette (palIndex m)

/-- `PpuRead(a)`: no side effect (20_memory R84). -/
def State.ppuRead (s : State) (a : Addr) : Byte :=
  match ppuCell s.cart a with
  | .pattern m => s.cart.ppuRead m
  | .nametable i => s.ppu.nametable.read i
  | .palette i => s.ppu.palette.read i

/-- `PpuWrite(a, v)` (20_memory R84). -/
def State.ppuWrite (s : State) (a : Addr) (v : Byte) : State :=
  match ppuCell s.cart a with
  | .pattern m => s.setCart (s.cart.ppuWrite m v)
  | .nametable i => s.setPpu { s.ppu with nametable := s.ppu.nametable.write i v }
  | .palette i => s.setPpu { s.ppu with palette := s.ppu.palette.write i v }

/-- The eight registers, by index (61 R356). -/
inductive PpuReg where
  | control
  | mask
  | status
  | oamAddress
  | oamData
  | scroll
  | address
  | data
deriving DecidableEq, Repr

/-- The register at index `r = a & 7` of the window (20_memory R63, 61 R356). -/
def ppuRegOf (a : Addr) : PpuReg :=
  match a.toNat % 8 with
  | 0 => .control
  | 1 => .mask
  | 2 => .status
  | 3 => .oamAddress
  | 4 => .oamData
  | 5 => .scroll
  | 6 => .address
  | _ => .data

/-- `rendering_enabled` (61 R361): bit 3 or bit 4 of the mask register. -/
def Ppu.renderingEnabled (p : Ppu) : Bool := p.mask.getLsbD 3 || p.mask.getLsbD 4

/-- `active_rendering` (61 R366). -/
def Ppu.activeRendering (p : Ppu) : Bool := p.renderingEnabled && decide (-1 ≤ p.scanline) && decide (p.scanline ≤ 239)

/-- `in_warmup` (61 R358). An instruction's cost is added at its end (00_scope R13), so `cycles` here is the count when the instruction began. -/
def State.inWarmup (s : State) : Bool := decide (s.cycles < s.params.warmupCycles)

/-- What the data register advances `vram_addr` by (61 R360, R370). -/
def Ppu.increment (p : Ppu) : Addr := if p.ctrl.getLsbD 2 then 32 else 1

/-- The byte a status read returns (61 R362). -/
def Ppu.statusByte (p : Ppu) : Byte :=
  BitVec.ofBool p.vblank ++ BitVec.ofBool p.sprite0Hit ++ BitVec.ofBool p.spriteOverflow ++ p.lastWrite.setWidth 5

/-- `PpuRegRead(r)`: the write-only registers read as open bus (61 R357). -/
def State.regRead (s : State) (r : PpuReg) : Byte × State :=
  match r with
  | .control => (openBus, s)
  | .mask => (openBus, s)
  | .status => (s.ppu.statusByte, s.setPpu { s.ppu with vblank := false, w := false })
  | .oamAddress => (openBus, s)
  | .oamData => (s.ppu.oam.read s.ppu.oamAddr.toNat, s)
  | .scroll => (openBus, s)
  | .address => (openBus, s)
  | .data => (s.ppuRead s.ppu.vramAddr, s.setPpu { s.ppu with vramAddr := s.ppu.vramAddr + s.ppu.increment })

/-- The action of a register write after `last_write` is set (61 R359 to R371). -/
def State.regAction (s : State) (r : PpuReg) (v : Byte) : State :=
  match r with
  | .control => if s.inWarmup then s else s.setPpu { s.ppu with ctrl := v }
  | .mask => s.setPpu { s.ppu with mask := v }
  | .status => s
  | .oamAddress => s.setPpu { s.ppu with oamAddr := v }
  | .oamData =>
    if s.ppu.activeRendering then s
    else s.setPpu { s.ppu with oam := s.ppu.oam.write s.ppu.oamAddr.toNat v, oamAddr := s.ppu.oamAddr + 1 }
  | .scroll =>
    if s.ppu.w then s.setPpu { s.ppu with scrollY := v, w := false } else s.setPpu { s.ppu with scrollX := v, w := true }
  | .address =>
    if s.ppu.w then s.setPpu { s.ppu with vramAddr := word (hi s.ppu.vramAddr) v, w := false }
    else s.setPpu { s.ppu with vramAddr := word v (lo s.ppu.vramAddr), w := true }
  | .data =>
    let t := s.ppuWrite s.ppu.vramAddr v
    t.setPpu { t.ppu with vramAddr := t.ppu.vramAddr + t.ppu.increment }

/-- `PpuRegWrite(r, v)`: `last_write <- v` first, for every register (61 R357). -/
def State.regWrite (s : State) (r : PpuReg) (v : Byte) : State :=
  (s.setPpu { s.ppu with lastWrite := v }).regAction r v

end Sys2Proof.Machine
end

