-- ==== Sys2Proof/Machine/Bus.lean ====
section
/-! DEFINITION. The processor's bus: `CpuRead` and `CpuWrite` (20_memory R60 to R69), and the OAM copy (R87). A read returns the byte and the state after
its side effects; no access faults (R88). -/

namespace Sys2Proof.Machine

/-- What a processor address reaches: the rows of the table of 20_memory R61. -/
inductive Region where
  /-- RAM, by index 0..2047 (R62) -/
  | ram (i : Nat)
  /-- a picture-unit register (R63) -/
  | ppu (r : PpuReg)
  /-- 0x4014 (R65) -/
  | dma
  /-- 0x4016 (R67) -/
  | input1
  /-- 0x4017 (R66, R67) -/
  | input2
  /-- the rest of 0x4000 to 0x4017 (R66) -/
  | audio
  /-- 0x4018 to 0x401F (R68) -/
  | reserved
  /-- 0x4020 to 0xFFFF (R69) -/
  | cartridge
deriving DecidableEq, Repr

/-- The decode of the processor space: total, "partitions are exhaustive and non-overlapping" (R60, R61). -/
def regionOf (a : Addr) : Region :=
  if a.toNat < 0x2000 then .ram (a.toNat % 0x0800)
  else if a.toNat < 0x4000 then .ppu (ppuRegOf a)
  else if a.toNat = 0x4014 then .dma
  else if a.toNat = 0x4016 then .input1
  else if a.toNat = 0x4017 then .input2
  else if a.toNat < 0x4018 then .audio
  else if a.toNat < 0x4020 then .reserved
  else .cartridge

/-- `CpuRead(a)` (R61). -/
def State.cpuRead (s : State) (a : Addr) : Byte × State :=
  match regionOf a with
  | .ram i => (s.ram.read i, s)
  | .ppu r => s.regRead r
  | .dma => (openBus, s)
  | .input1 =>
    let r := s.input1.read s.drawn
    (r.1, (s.setInput1 r.2.1).setDrawn r.2.2)
  | .input2 =>
    let r := s.input2.read s.drawn
    (r.1, (s.setInput2 r.2.1).setDrawn r.2.2)
  | .audio => (openBus, s)
  | .reserved => (0x00, s)
  | .cartridge => (s.cart.cpuRead a, s)

/-- One byte of the OAM copy: `oam[oam_addr +8 i] <- CpuRead(word(v, i))` (R87). -/
def State.oamDmaByte (s : State) (v i : Byte) : State :=
  let r := s.cpuRead (word v i)
  r.2.setPpu { r.2.ppu with oam := r.2.ppu.oam.write (r.2.ppu.oamAddr + i).toNat r.1 }

/-- The last `n` of the 256 bytes of the copy, in ascending order. -/
def State.oamDmaLast (v : Byte) : Nat → State → State
  | 0, s => s
  | n + 1, s => State.oamDmaLast v n (s.oamDmaByte v (BitVec.ofNat 8 (255 - n)))

/-- `OamDma(v)` (R87): `oam_addr` is unchanged at the end, and no cycle is counted. -/
def State.oamDma (s : State) (v : Byte) : State := State.oamDmaLast v 256 s

/-- `CpuWrite(a, v)` (R61). A write to 0x4016 reaches both input devices; a write to the audio device changes nothing (R66). -/
def State.cpuWrite (s : State) (a : Addr) (v : Byte) : State :=
  match regionOf a with
  | .ram i => s.setRam (s.ram.write i v)
  | .ppu r => s.regWrite r v
  | .dma => s.oamDma v
  | .input1 => (s.setInput1 (s.input1.write v)).setInput2 (s.input2.write v)
  | .input2 => s
  | .audio => s
  | .reserved => s
  | .cartridge => s.setCart (s.cart.cpuWrite a v)

end Sys2Proof.Machine
end

