-- ==== Sys2Proof/Machine/Ops.lean ====
section
/-! DEFINITION. The operations the instructions share: 16-bit reads, the stack (00_scope R9, R10), the end of an instruction, entering a handler and
returning from one (60_exceptions R315, R319, R320), the processor's reset and power-on (70 R420, R421). -/

namespace Sys2Proof.Machine

/-- `Read16(a)`: low byte read first, the high byte from `a +16 1` (00_scope R9). -/
def State.read16 (s : State) (a : Addr) : Addr × State :=
  let l := s.cpuRead a
  let h := l.2.cpuRead (a + 1)
  (word h.1 l.1, h.2)

/-- `Read16Wrap(a)`: the high byte from the same page (00_scope R9, 20_memory R75). -/
def State.read16Wrap (s : State) (a : Addr) : Addr × State :=
  let l := s.cpuRead a
  let h := l.2.cpuRead (nextInPage a)
  (word h.1 l.1, h.2)

/-- `Push(v)`: store at the slot `SP` names, then decrement (00_scope R10). -/
def State.push (s : State) (v : Byte) : State :=
  (s.cpuWrite (stackSlot s.sp) v).setSp (s.sp - 1)

/-- `Pull()`: increment, then load (00_scope R10). -/
def State.pull (s : State) : Byte × State :=
  (s.setSp (s.sp + 1)).cpuRead (stackSlot (s.sp + 1))

/-- `Push16(w)`: high byte first (00_scope R10). -/
def State.push16 (s : State) (w : Addr) : State := (s.push (hi w)).push (lo w)

/-- `Pull16()`: low byte first (00_scope R10). -/
def State.pull16 (s : State) : Addr × State :=
  let l := s.pull
  let h := l.2.pull
  (word h.1 l.1, h.2)

/-- The end of an instruction that is no control transfer: `PC <- PC +16 length`, and its cost is counted (10_state R21, 00_scope R13). -/
def State.finish (s : State) (length cost : Nat) : State :=
  (s.setPc (s.pc + BitVec.ofNat 16 length)).setCycles (s.cycles + cost)

/-- The end of an instruction that wrote `PC`. -/
def State.jump (s : State) (target : Addr) (cost : Nat) : State :=
  (s.setPc target).setCycles (s.cycles + cost)

/-- Entering a handler, shared by BRK and the NMI (60 R315, R319): `Push16(ret); Push(Pack()); I <- 1; PC <- Read16(vector)`. -/
def State.enterHandler (s : State) (ret vector : Addr) (cost : Nat) : State :=
  let t := (s.push16 ret).push s.flags.pack
  let u := t.setFlags { t.flags with i := true }
  let r := u.read16 vector
  r.2.jump r.1 cost

/-- Returning from one (60 R320, 44 R263): the status first, then the address, used as it is. -/
def State.returnFromHandler (s : State) (cost : Nat) : State :=
  let p := s.pull
  let r := (p.2.setFlags (Flags.unpack p.1)).pull16
  r.2.jump r.1 cost

/-- NMI service (60 R315): the latch is cleared, the pushed address is the next instruction's, the pushed status is the flags as stored (R317). -/
def State.nmiEntry (s : State) : State := (s.setNmiPending false).enterHandler s.pc nmiVector nmiEntryCycles

/-- The processor's `reset()` (70 R420): what it does not name keeps its value, and no cycle is counted. -/
def State.resetProcessor (s : State) : State :=
  let t := ((s.setSp resetSp).setFlags { s.flags with i := true, b := true }).setNmiPending false
  let r := t.read16 resetVector
  r.2.setPc r.1

/-- Power-on with a loaded cartridge (70 R421): the machine is built, then `reset()` runs. -/
def powerOn (cart : Cart) (params : Params) (ramInit : Memory) : State := (State.built cart params ramInit).resetProcessor

end Sys2Proof.Machine
end

