-- ==== Sys2Proof/Machine/Operands.lean ====
section
/-! DEFINITION. The addressing modes (30_encoding R143 to R158) and the three classes of memory instructions with their costs (70 R440): an instruction
that reads an operand, one that stores, one that reads, modifies and writes. The operand bytes have been fetched with the instruction. -/

namespace Sys2Proof.Machine

/-- The modes that name a byte of memory, each with its operand. -/
inductive MemMode where
  /-- zero page (R148) -/
  | zp (a : Byte)
  /-- zero page indexed by X (R149) -/
  | zpx (a : Byte)
  /-- zero page indexed by Y (R150) -/
  | zpy (a : Byte)
  /-- absolute (R151) -/
  | abs (addr : Addr)
  /-- absolute indexed by X (R152) -/
  | abx (addr : Addr)
  /-- absolute indexed by Y (R153) -/
  | aby (addr : Addr)
  /-- indexed indirect `(zp,X)` (R154) -/
  | izx (p : Byte)
  /-- indirect indexed `(zp),Y` (R155) -/
  | izy (p : Byte)
deriving DecidableEq, Repr

/-- The operand of a reading instruction: an immediate (R146) or a byte of memory. -/
inductive ReadMode where
  | imm (v : Byte)
  | mem (m : MemMode)
deriving DecidableEq, Repr

/-- The operand of a read-modify-write instruction: the accumulator (R145) or a byte of memory in one of four modes (41 R200). -/
inductive RmwMode where
  | acc
  | zp (a : Byte)
  | zpx (a : Byte)
  | abs (addr : Addr)
  | abx (addr : Addr)
deriving DecidableEq, Repr

/-- The length of an instruction in the mode (30_encoding R142). -/
def MemMode.length : MemMode → Nat
  | .zp _ => 2
  | .zpx _ => 2
  | .zpy _ => 2
  | .abs _ => 3
  | .abx _ => 3
  | .aby _ => 3
  | .izx _ => 2
  | .izy _ => 2

def ReadMode.length : ReadMode → Nat
  | .imm _ => 2
  | .mem m => m.length

/-- What an addressing mode yields: the address before indexing, the effective address, and the state after the pointer reads. -/
structure Effective where
  base : Addr
  ea : Addr
  state : State

/-- The address a mode computes (R148 to R155), with its pointer reads. -/
def MemMode.effective (m : MemMode) (s : State) : Effective :=
  match m with
  | .zp a => { base := zext16 a, ea := zext16 a, state := s }
  | .zpx a => { base := zext16 (a + s.x), ea := zext16 (a + s.x), state := s }
  | .zpy a => { base := zext16 (a + s.y), ea := zext16 (a + s.y), state := s }
  | .abs addr => { base := addr, ea := addr, state := s }
  | .abx addr => { base := addr, ea := addr + zext16 s.x, state := s }
  | .aby addr => { base := addr, ea := addr + zext16 s.y, state := s }
  | .izx p =>
    let r := s.read16Wrap (zext16 (p + s.x))
    { base := r.1, ea := r.1, state := r.2 }
  | .izy p =>
    let r := s.read16Wrap (zext16 p)
    { base := r.1, ea := r.1 + zext16 s.y, state := r.2 }

/-- The page-cross indicator (R147): false for every mode that is not ABX, ABY or IZY, whose base is the effective address. -/
def Effective.crossed (e : Effective) : Bool := pageCrossed e.base e.ea

/-- Whether the mode is one of ABX, ABY, IZY, the modes a dummy read belongs to (R158). -/
def MemMode.mayDummyRead : MemMode → Bool
  | .abx _ => true
  | .aby _ => true
  | .izy _ => true
  | .zp _ => false
  | .zpx _ => false
  | .zpy _ => false
  | .abs _ => false
  | .izx _ => false

/-- `partial` (R158): the index added to the low byte only. -/
def Effective.partialAddr (e : Effective) : Addr := word (hi e.base) (lo e.ea)

/-- Whether the policy asks for a dummy read (R158). -/
def DummyReadPolicy.asks : DummyReadPolicy → Bool → Bool
  | .never, _ => false
  | .onPageCross, crossed => crossed
  | .always, _ => true

/-- The address of the operand, the state in which it is accessed (after the pointer reads and the dummy read), and the page-cross indicator. -/
structure Access where
  ea : Addr
  crossed : Bool
  state : State

/-- Steps (3) and (4) of 20_memory R79: the pointer bytes, then the dummy read if the policy asks for one. -/
def MemMode.access (m : MemMode) (s : State) : Access :=
  let e := m.effective s
  { ea := e.ea
    crossed := e.crossed
    state :=
      if m.mayDummyRead && DummyReadPolicy.asks s.params.dummyRead e.crossed then (e.state.cpuRead e.partialAddr).2 else e.state }

/-- The operand of a reading instruction: its value, the page-cross indicator, and the state after the read. -/
structure Operand where
  value : Byte
  crossed : Bool
  state : State

/-- `M` (R143, R146): an immediate is the byte fetched with the instruction, any other operand is one read at the effective address. -/
def ReadMode.operand (m : ReadMode) (s : State) : Operand :=
  match m with
  | .imm v => { value := v, crossed := false, state := s }
  | .mem m =>
    let acc := m.access s
    let r := acc.state.cpuRead acc.ea
    { value := r.1, crossed := acc.crossed, state := r.2 }

/-- The cost of the read class (70 R440, R441 (a)). -/
def ReadMode.cost (m : ReadMode) (crossed : Bool) : Nat :=
  match m with
  | .imm _ => 2
  | .mem (.zp _) => 3
  | .mem (.zpx _) => 4
  | .mem (.zpy _) => 4
  | .mem (.abs _) => 4
  | .mem (.abx _) => 4 + crossed.toNat
  | .mem (.aby _) => 4 + crossed.toNat
  | .mem (.izx _) => 6
  | .mem (.izy _) => 5 + crossed.toNat

/-- The cost of the write class (70 R440, R441 (b), (c)): it does not depend on the crossing. -/
def MemMode.storeCost : MemMode → Nat
  | .zp _ => 3
  | .zpx _ => 4
  | .zpy _ => 4
  | .abs _ => 4
  | .abx _ => 5
  | .aby _ => 5
  | .izx _ => 6
  | .izy _ => 6

/-- An instruction that reads an operand: its own effect on the value, then the end of the instruction. -/
def readInstr (effect : Byte → State → State) (m : ReadMode) (s : State) : State :=
  let o := m.operand s
  (effect o.value o.state).finish m.length (m.cost o.crossed)

/-- An instruction that stores a register: it never reads its target (40 R185, 41 R205, 42 R224). -/
def storeInstr (v : Byte) (m : MemMode) (s : State) : State :=
  let acc := m.access s
  (acc.state.cpuWrite acc.ea v).finish m.length m.storeCost

/-- A read-modify-write instruction on memory: one read, one write of the new value (41 R200, decision D7). -/
def modifyMem (f : Byte → Flags → Byte × Flags) (m : MemMode) (cost : Nat) (s : State) : State :=
  let acc := m.access s
  let v := acc.state.cpuRead acc.ea
  let r := f v.1 v.2.flags
  ((v.2.setFlags r.2).cpuWrite acc.ea r.1).finish m.length cost

/-- A read-modify-write instruction in any of its modes, with the costs of 41 R200. -/
def modifyInstr (f : Byte → Flags → Byte × Flags) (m : RmwMode) (s : State) : State :=
  match m with
  | .acc =>
    let r := f s.a s.flags
    ((s.setA r.1).setFlags r.2).finish 1 2
  | .zp a => modifyMem f (.zp a) 5 s
  | .zpx a => modifyMem f (.zpx a) 6 s
  | .abs addr => modifyMem f (.abs addr) 6 s
  | .abx addr => modifyMem f (.abx addr) 7 s

/-- An instruction that changes the state and ends one byte further (44 R260). -/
def impliedInstr (effect : State → State) (cost : Nat) (s : State) : State := (effect s).finish 1 cost

end Sys2Proof.Machine
end

