-- ==== Sys2Proof/Machine/Alu.lean ====
section
/-! DEFINITION. The instructions of group 01 (40_group01_alu R180 to R188): one effect per mnemonic, one meaning per row. -/

namespace Sys2Proof.Machine

/-- ORA (R181): bitwise OR with the accumulator. -/
def oraEffect (m : Byte) (s : State) : State := (s.setA (s.a ||| m)).setFlags (s.flags.setZN (s.a ||| m))

def execOraIzx (p : Byte) (s : State) : Host.Outcome State Fault Refusal := .next (readInstr oraEffect (.mem (.izx p)) s)
def execOraZp (a : Byte) (s : State) : Host.Outcome State Fault Refusal := .next (readInstr oraEffect (.mem (.zp a)) s)
def execOraImm (v : Byte) (s : State) : Host.Outcome State Fault Refusal := .next (readInstr oraEffect (.imm v) s)
def execOraAbs (addr : Addr) (s : State) : Host.Outcome State Fault Refusal := .next (readInstr oraEffect (.mem (.abs addr)) s)
def execOraIzy (p : Byte) (s : State) : Host.Outcome State Fault Refusal := .next (readInstr oraEffect (.mem (.izy p)) s)
def execOraZpx (a : Byte) (s : State) : Host.Outcome State Fault Refusal := .next (readInstr oraEffect (.mem (.zpx a)) s)
def execOraAby (addr : Addr) (s : State) : Host.Outcome State Fault Refusal := .next (readInstr oraEffect (.mem (.aby addr)) s)
def execOraAbx (addr : Addr) (s : State) : Host.Outcome State Fault Refusal := .next (readInstr oraEffect (.mem (.abx addr)) s)

/-- AND (R182): bitwise AND with the accumulator. -/
def andEffect (m : Byte) (s : State) : State := (s.setA (s.a &&& m)).setFlags (s.flags.setZN (s.a &&& m))

def execAndIzx (p : Byte) (s : State) : Host.Outcome State Fault Refusal := .next (readInstr andEffect (.mem (.izx p)) s)
def execAndZp (a : Byte) (s : State) : Host.Outcome State Fault Refusal := .next (readInstr andEffect (.mem (.zp a)) s)
def execAndImm (v : Byte) (s : State) : Host.Outcome State Fault Refusal := .next (readInstr andEffect (.imm v) s)
def execAndAbs (addr : Addr) (s : State) : Host.Outcome State Fault Refusal := .next (readInstr andEffect (.mem (.abs addr)) s)
def execAndIzy (p : Byte) (s : State) : Host.Outcome State Fault Refusal := .next (readInstr andEffect (.mem (.izy p)) s)
def execAndZpx (a : Byte) (s : State) : Host.Outcome State Fault Refusal := .next (readInstr andEffect (.mem (.zpx a)) s)
def execAndAby (addr : Addr) (s : State) : Host.Outcome State Fault Refusal := .next (readInstr andEffect (.mem (.aby addr)) s)
def execAndAbx (addr : Addr) (s : State) : Host.Outcome State Fault Refusal := .next (readInstr andEffect (.mem (.abx addr)) s)

/-- EOR (R183): bitwise exclusive OR with the accumulator. -/
def eorEffect (m : Byte) (s : State) : State := (s.setA (s.a ^^^ m)).setFlags (s.flags.setZN (s.a ^^^ m))

def execEorIzx (p : Byte) (s : State) : Host.Outcome State Fault Refusal := .next (readInstr eorEffect (.mem (.izx p)) s)
def execEorZp (a : Byte) (s : State) : Host.Outcome State Fault Refusal := .next (readInstr eorEffect (.mem (.zp a)) s)
def execEorImm (v : Byte) (s : State) : Host.Outcome State Fault Refusal := .next (readInstr eorEffect (.imm v) s)
def execEorAbs (addr : Addr) (s : State) : Host.Outcome State Fault Refusal := .next (readInstr eorEffect (.mem (.abs addr)) s)
def execEorIzy (p : Byte) (s : State) : Host.Outcome State Fault Refusal := .next (readInstr eorEffect (.mem (.izy p)) s)
def execEorZpx (a : Byte) (s : State) : Host.Outcome State Fault Refusal := .next (readInstr eorEffect (.mem (.zpx a)) s)
def execEorAby (addr : Addr) (s : State) : Host.Outcome State Fault Refusal := .next (readInstr eorEffect (.mem (.aby addr)) s)
def execEorAbx (addr : Addr) (s : State) : Host.Outcome State Fault Refusal := .next (readInstr eorEffect (.mem (.abx addr)) s)

/-- ADC (R184): add with carry; `D` is not looked at (10_state R25). -/
def adcEffect (m : Byte) (s : State) : State := (s.setA (adcResult s.a m s.flags.c)).setFlags (s.flags.adc s.a m)

def execAdcIzx (p : Byte) (s : State) : Host.Outcome State Fault Refusal := .next (readInstr adcEffect (.mem (.izx p)) s)
def execAdcZp (a : Byte) (s : State) : Host.Outcome State Fault Refusal := .next (readInstr adcEffect (.mem (.zp a)) s)
def execAdcImm (v : Byte) (s : State) : Host.Outcome State Fault Refusal := .next (readInstr adcEffect (.imm v) s)
def execAdcAbs (addr : Addr) (s : State) : Host.Outcome State Fault Refusal := .next (readInstr adcEffect (.mem (.abs addr)) s)
def execAdcIzy (p : Byte) (s : State) : Host.Outcome State Fault Refusal := .next (readInstr adcEffect (.mem (.izy p)) s)
def execAdcZpx (a : Byte) (s : State) : Host.Outcome State Fault Refusal := .next (readInstr adcEffect (.mem (.zpx a)) s)
def execAdcAby (addr : Addr) (s : State) : Host.Outcome State Fault Refusal := .next (readInstr adcEffect (.mem (.aby addr)) s)
def execAdcAbx (addr : Addr) (s : State) : Host.Outcome State Fault Refusal := .next (readInstr adcEffect (.mem (.abx addr)) s)

/-! STA (R185). -/

def execStaIzx (p : Byte) (s : State) : Host.Outcome State Fault Refusal := .next (storeInstr s.a (.izx p) s)
def execStaZp (a : Byte) (s : State) : Host.Outcome State Fault Refusal := .next (storeInstr s.a (.zp a) s)
def execStaAbs (addr : Addr) (s : State) : Host.Outcome State Fault Refusal := .next (storeInstr s.a (.abs addr) s)
def execStaIzy (p : Byte) (s : State) : Host.Outcome State Fault Refusal := .next (storeInstr s.a (.izy p) s)
def execStaZpx (a : Byte) (s : State) : Host.Outcome State Fault Refusal := .next (storeInstr s.a (.zpx a) s)
def execStaAby (addr : Addr) (s : State) : Host.Outcome State Fault Refusal := .next (storeInstr s.a (.aby addr) s)
def execStaAbx (addr : Addr) (s : State) : Host.Outcome State Fault Refusal := .next (storeInstr s.a (.abx addr) s)

/-- LDA (R186): load the accumulator. -/
def ldaEffect (m : Byte) (s : State) : State := (s.setA m).setFlags (s.flags.setZN m)

def execLdaIzx (p : Byte) (s : State) : Host.Outcome State Fault Refusal := .next (readInstr ldaEffect (.mem (.izx p)) s)
def execLdaZp (a : Byte) (s : State) : Host.Outcome State Fault Refusal := .next (readInstr ldaEffect (.mem (.zp a)) s)
def execLdaImm (v : Byte) (s : State) : Host.Outcome State Fault Refusal := .next (readInstr ldaEffect (.imm v) s)
def execLdaAbs (addr : Addr) (s : State) : Host.Outcome State Fault Refusal := .next (readInstr ldaEffect (.mem (.abs addr)) s)
def execLdaIzy (p : Byte) (s : State) : Host.Outcome State Fault Refusal := .next (readInstr ldaEffect (.mem (.izy p)) s)
def execLdaZpx (a : Byte) (s : State) : Host.Outcome State Fault Refusal := .next (readInstr ldaEffect (.mem (.zpx a)) s)
def execLdaAby (addr : Addr) (s : State) : Host.Outcome State Fault Refusal := .next (readInstr ldaEffect (.mem (.aby addr)) s)
def execLdaAbx (addr : Addr) (s : State) : Host.Outcome State Fault Refusal := .next (readInstr ldaEffect (.mem (.abx addr)) s)

/-- CMP (R187): compare the accumulator with memory. -/
def cmpEffect (m : Byte) (s : State) : State := s.setFlags (s.flags.compare s.a m)

def execCmpIzx (p : Byte) (s : State) : Host.Outcome State Fault Refusal := .next (readInstr cmpEffect (.mem (.izx p)) s)
def execCmpZp (a : Byte) (s : State) : Host.Outcome State Fault Refusal := .next (readInstr cmpEffect (.mem (.zp a)) s)
def execCmpImm (v : Byte) (s : State) : Host.Outcome State Fault Refusal := .next (readInstr cmpEffect (.imm v) s)
def execCmpAbs (addr : Addr) (s : State) : Host.Outcome State Fault Refusal := .next (readInstr cmpEffect (.mem (.abs addr)) s)
def execCmpIzy (p : Byte) (s : State) : Host.Outcome State Fault Refusal := .next (readInstr cmpEffect (.mem (.izy p)) s)
def execCmpZpx (a : Byte) (s : State) : Host.Outcome State Fault Refusal := .next (readInstr cmpEffect (.mem (.zpx a)) s)
def execCmpAby (addr : Addr) (s : State) : Host.Outcome State Fault Refusal := .next (readInstr cmpEffect (.mem (.aby addr)) s)
def execCmpAbx (addr : Addr) (s : State) : Host.Outcome State Fault Refusal := .next (readInstr cmpEffect (.mem (.abx addr)) s)

/-- SBC (R188): "addition of the bitwise negation of the operand adjusted by the inverse of the carry flag". -/
def sbcEffect (m : Byte) (s : State) : State := adcEffect (~~~m) s

def execSbcIzx (p : Byte) (s : State) : Host.Outcome State Fault Refusal := .next (readInstr sbcEffect (.mem (.izx p)) s)
def execSbcZp (a : Byte) (s : State) : Host.Outcome State Fault Refusal := .next (readInstr sbcEffect (.mem (.zp a)) s)
def execSbcImm (v : Byte) (s : State) : Host.Outcome State Fault Refusal := .next (readInstr sbcEffect (.imm v) s)
def execSbcAbs (addr : Addr) (s : State) : Host.Outcome State Fault Refusal := .next (readInstr sbcEffect (.mem (.abs addr)) s)
def execSbcIzy (p : Byte) (s : State) : Host.Outcome State Fault Refusal := .next (readInstr sbcEffect (.mem (.izy p)) s)
def execSbcZpx (a : Byte) (s : State) : Host.Outcome State Fault Refusal := .next (readInstr sbcEffect (.mem (.zpx a)) s)
def execSbcAby (addr : Addr) (s : State) : Host.Outcome State Fault Refusal := .next (readInstr sbcEffect (.mem (.aby addr)) s)
def execSbcAbx (addr : Addr) (s : State) : Host.Outcome State Fault Refusal := .next (readInstr sbcEffect (.mem (.abx addr)) s)

end Sys2Proof.Machine
end

