-- ==== Sys2Proof/Machine/Branch.lean ====
section
/-! DEFINITION. The eight conditional branches (43_branches R240 to R248). -/

namespace Sys2Proof.Machine

/-- The branch instruction (R240): 2 cycles, one more when taken, one more when taken to another page than the next instruction's. -/
def branchInstr (taken : Bool) (d : Byte) (s : State) : State :=
  let next := s.pc + 2
  let target := next + sext16 d
  if taken then s.jump target (3 + (pageCrossed next target).toNat) else s.jump next 2

/-- BPL (R241). -/
def execBpl (d : Byte) (s : State) : Host.Outcome State Fault Refusal := .next (branchInstr (!s.flags.n) d s)

/-- BMI (R242). -/
def execBmi (d : Byte) (s : State) : Host.Outcome State Fault Refusal := .next (branchInstr s.flags.n d s)

/-- BVC (R243). -/
def execBvc (d : Byte) (s : State) : Host.Outcome State Fault Refusal := .next (branchInstr (!s.flags.v) d s)

/-- BVS (R244). -/
def execBvs (d : Byte) (s : State) : Host.Outcome State Fault Refusal := .next (branchInstr s.flags.v d s)

/-- BCC (R245). -/
def execBcc (d : Byte) (s : State) : Host.Outcome State Fault Refusal := .next (branchInstr (!s.flags.c) d s)

/-- BCS (R246). -/
def execBcs (d : Byte) (s : State) : Host.Outcome State Fault Refusal := .next (branchInstr s.flags.c d s)

/-- BNE (R247). -/
def execBne (d : Byte) (s : State) : Host.Outcome State Fault Refusal := .next (branchInstr (!s.flags.z) d s)

/-- BEQ (R248). -/
def execBeq (d : Byte) (s : State) : Host.Outcome State Fault Refusal := .next (branchInstr s.flags.z d s)

end Sys2Proof.Machine
end

