-- ==== Sys2Proof/Machine/Misc.lean ====
section
/-! DEFINITION. The instructions of group 00 (42_group00_misc R220 to R227). -/

namespace Sys2Proof.Machine

/-- BIT (R221): test bits of memory against the accumulator. -/
def bitEffect (m : Byte) (s : State) : State := s.setFlags (s.flags.bitTest s.a m)

def execBitZp (a : Byte) (s : State) : Host.Outcome State Fault Refusal := .next (readInstr bitEffect (.mem (.zp a)) s)
def execBitAbs (addr : Addr) (s : State) : Host.Outcome State Fault Refusal := .next (readInstr bitEffect (.mem (.abs addr)) s)

/-- JMP absolute (R222). -/
def execJmpAbs (addr : Addr) (s : State) : Host.Outcome State Fault Refusal := .next (s.jump addr 3)

/-- JMP indirect (R223): the high byte of the target comes from the pointer's own page. -/
def execJmpInd (addr : Addr) (s : State) : Host.Outcome State Fault Refusal :=
  let r := s.read16Wrap addr
  .next (r.2.jump r.1 5)

/-! STY (R224). -/

def execStyZp (a : Byte) (s : State) : Host.Outcome State Fault Refusal := .next (storeInstr s.y (.zp a) s)
def execStyAbs (addr : Addr) (s : State) : Host.Outcome State Fault Refusal := .next (storeInstr s.y (.abs addr) s)
def execStyZpx (a : Byte) (s : State) : Host.Outcome State Fault Refusal := .next (storeInstr s.y (.zpx a) s)

/-- LDY (R225): load Y. -/
def ldyEffect (m : Byte) (s : State) : State := (s.setY m).setFlags (s.flags.setZN m)

def execLdyImm (v : Byte) (s : State) : Host.Outcome State Fault Refusal := .next (readInstr ldyEffect (.imm v) s)
def execLdyZp (a : Byte) (s : State) : Host.Outcome State Fault Refusal := .next (readInstr ldyEffect (.mem (.zp a)) s)
def execLdyAbs (addr : Addr) (s : State) : Host.Outcome State Fault Refusal := .next (readInstr ldyEffect (.mem (.abs addr)) s)
def execLdyZpx (a : Byte) (s : State) : Host.Outcome State Fault Refusal := .next (readInstr ldyEffect (.mem (.zpx a)) s)
def execLdyAbx (addr : Addr) (s : State) : Host.Outcome State Fault Refusal := .next (readInstr ldyEffect (.mem (.abx addr)) s)

/-- CPY (R226): compare Y with memory. -/
def cpyEffect (m : Byte) (s : State) : State := s.setFlags (s.flags.compare s.y m)

def execCpyImm (v : Byte) (s : State) : Host.Outcome State Fault Refusal := .next (readInstr cpyEffect (.imm v) s)
def execCpyZp (a : Byte) (s : State) : Host.Outcome State Fault Refusal := .next (readInstr cpyEffect (.mem (.zp a)) s)
def execCpyAbs (addr : Addr) (s : State) : Host.Outcome State Fault Refusal := .next (readInstr cpyEffect (.mem (.abs addr)) s)

/-- CPX (R227): compare X with memory. -/
def cpxEffect (m : Byte) (s : State) : State := s.setFlags (s.flags.compare s.x m)

def execCpxImm (v : Byte) (s : State) : Host.Outcome State Fault Refusal := .next (readInstr cpxEffect (.imm v) s)
def execCpxZp (a : Byte) (s : State) : Host.Outcome State Fault Refusal := .next (readInstr cpxEffect (.mem (.zp a)) s)
def execCpxAbs (addr : Addr) (s : State) : Host.Outcome State Fault Refusal := .next (readInstr cpxEffect (.mem (.abs addr)) s)

end Sys2Proof.Machine
end

