-- ==== Sys2Proof/Machine/Nop.lean ====
section
/-! DEFINITION. The undocumented no-operations (45_undocumented_nops R300 to R302): the ten rows of the default table, and any other member. -/

namespace Sys2Proof.Machine

/-- The cost R300 pairs with a length: "correspondingly 2, 3, or 4 cycle cost". -/
def nopCycles (length : Nat) : Nat := length + 1

/-- NOP* (R302): `PC` moves past the instruction and its cost is counted. Operand bytes that are read and discarded were read with the fetch. -/
def nopStar (length : Nat) (s : State) : State := s.finish length (nopCycles length)

def execNopStar04 (_ : Byte) (s : State) : Host.Outcome State Fault Refusal := .next (nopStar 2 s)
def execNopStar0C (_ : Addr) (s : State) : Host.Outcome State Fault Refusal := .next (nopStar 3 s)
def execNopStar1A (s : State) : Host.Outcome State Fault Refusal := .next (nopStar 1 s)
def execNopStar3A (s : State) : Host.Outcome State Fault Refusal := .next (nopStar 1 s)
def execNopStar44 (_ : Byte) (s : State) : Host.Outcome State Fault Refusal := .next (nopStar 2 s)
def execNopStar5A (s : State) : Host.Outcome State Fault Refusal := .next (nopStar 1 s)
def execNopStar64 (_ : Byte) (s : State) : Host.Outcome State Fault Refusal := .next (nopStar 2 s)
def execNopStar7A (s : State) : Host.Outcome State Fault Refusal := .next (nopStar 1 s)
def execNopStarDA (s : State) : Host.Outcome State Fault Refusal := .next (nopStar 1 s)
def execNopStarFA (s : State) : Host.Outcome State Fault Refusal := .next (nopStar 1 s)
def execNopStarOther (_ : Byte) (e : NopEntry) (s : State) : Host.Outcome State Fault Refusal := .next (nopStar e.length s)

end Sys2Proof.Machine
end

