-- ==== Sys2Proof/Machine/ShiftX.lean ====
section
/-! DEFINITION. The instructions of group 10 (41_group10_shift_x R200 to R209). -/

namespace Sys2Proof.Machine

/-! ASL (R201). -/

def execAslZp (a : Byte) (s : State) : Host.Outcome State Fault Refusal := .next (modifyInstr asl (.zp a) s)
def execAslAcc (s : State) : Host.Outcome State Fault Refusal := .next (modifyInstr asl .acc s)
def execAslAbs (addr : Addr) (s : State) : Host.Outcome State Fault Refusal := .next (modifyInstr asl (.abs addr) s)
def execAslZpx (a : Byte) (s : State) : Host.Outcome State Fault Refusal := .next (modifyInstr asl (.zpx a) s)
def execAslAbx (addr : Addr) (s : State) : Host.Outcome State Fault Refusal := .next (modifyInstr asl (.abx addr) s)

/-! ROL (R202). -/

def execRolZp (a : Byte) (s : State) : Host.Outcome State Fault Refusal := .next (modifyInstr rol (.zp a) s)
def execRolAcc (s : State) : Host.Outcome State Fault Refusal := .next (modifyInstr rol .acc s)
def execRolAbs (addr : Addr) (s : State) : Host.Outcome State Fault Refusal := .next (modifyInstr rol (.abs addr) s)
def execRolZpx (a : Byte) (s : State) : Host.Outcome State Fault Refusal := .next (modifyInstr rol (.zpx a) s)
def execRolAbx (addr : Addr) (s : State) : Host.Outcome State Fault Refusal := .next (modifyInstr rol (.abx addr) s)

/-! LSR (R203). -/

def execLsrZp (a : Byte) (s : State) : Host.Outcome State Fault Refusal := .next (modifyInstr lsr (.zp a) s)
def execLsrAcc (s : State) : Host.Outcome State Fault Refusal := .next (modifyInstr lsr .acc s)
def execLsrAbs (addr : Addr) (s : State) : Host.Outcome State Fault Refusal := .next (modifyInstr lsr (.abs addr) s)
def execLsrZpx (a : Byte) (s : State) : Host.Outcome State Fault Refusal := .next (modifyInstr lsr (.zpx a) s)
def execLsrAbx (addr : Addr) (s : State) : Host.Outcome State Fault Refusal := .next (modifyInstr lsr (.abx addr) s)

/-! ROR (R204). -/

def execRorZp (a : Byte) (s : State) : Host.Outcome State Fault Refusal := .next (modifyInstr ror (.zp a) s)
def execRorAcc (s : State) : Host.Outcome State Fault Refusal := .next (modifyInstr ror .acc s)
def execRorAbs (addr : Addr) (s : State) : Host.Outcome State Fault Refusal := .next (modifyInstr ror (.abs addr) s)
def execRorZpx (a : Byte) (s : State) : Host.Outcome State Fault Refusal := .next (modifyInstr ror (.zpx a) s)
def execRorAbx (addr : Addr) (s : State) : Host.Outcome State Fault Refusal := .next (modifyInstr ror (.abx addr) s)

/-! STX (R205). -/

def execStxZp (a : Byte) (s : State) : Host.Outcome State Fault Refusal := .next (storeInstr s.x (.zp a) s)
def execStxAbs (addr : Addr) (s : State) : Host.Outcome State Fault Refusal := .next (storeInstr s.x (.abs addr) s)
def execStxZpy (a : Byte) (s : State) : Host.Outcome State Fault Refusal := .next (storeInstr s.x (.zpy a) s)

/-- LDX (R206): load X. -/
def ldxEffect (m : Byte) (s : State) : State := (s.setX m).setFlags (s.flags.setZN m)

def execLdxImm (v : Byte) (s : State) : Host.Outcome State Fault Refusal := .next (readInstr ldxEffect (.imm v) s)
def execLdxZp (a : Byte) (s : State) : Host.Outcome State Fault Refusal := .next (readInstr ldxEffect (.mem (.zp a)) s)
def execLdxAbs (addr : Addr) (s : State) : Host.Outcome State Fault Refusal := .next (readInstr ldxEffect (.mem (.abs addr)) s)
def execLdxZpy (a : Byte) (s : State) : Host.Outcome State Fault Refusal := .next (readInstr ldxEffect (.mem (.zpy a)) s)
def execLdxAby (addr : Addr) (s : State) : Host.Outcome State Fault Refusal := .next (readInstr ldxEffect (.mem (.aby addr)) s)

/-! DEC (R207). -/

def execDecZp (a : Byte) (s : State) : Host.Outcome State Fault Refusal := .next (modifyInstr decr (.zp a) s)
def execDecAbs (addr : Addr) (s : State) : Host.Outcome State Fault Refusal := .next (modifyInstr decr (.abs addr) s)
def execDecZpx (a : Byte) (s : State) : Host.Outcome State Fault Refusal := .next (modifyInstr decr (.zpx a) s)
def execDecAbx (addr : Addr) (s : State) : Host.Outcome State Fault Refusal := .next (modifyInstr decr (.abx addr) s)

/-! INC (R208). -/

def execIncZp (a : Byte) (s : State) : Host.Outcome State Fault Refusal := .next (modifyInstr incr (.zp a) s)
def execIncAbs (addr : Addr) (s : State) : Host.Outcome State Fault Refusal := .next (modifyInstr incr (.abs addr) s)
def execIncZpx (a : Byte) (s : State) : Host.Outcome State Fault Refusal := .next (modifyInstr incr (.zpx a) s)
def execIncAbx (addr : Addr) (s : State) : Host.Outcome State Fault Refusal := .next (modifyInstr incr (.abx addr) s)

end Sys2Proof.Machine
end

