-- ==== Sys2Proof/Machine/SingleByte.lean ====
section
/-! DEFINITION. The one-byte instructions and JSR (44_single_byte R260 to R286). -/

namespace Sys2Proof.Machine

/-- BRK (R261): `B` is set before the status is pushed; the pushed address is the opcode's plus BRK_PUSH_OFFSET. -/
def execBrk (s : State) : Host.Outcome State Fault Refusal :=
  .next ((s.setFlags { s.flags with b := true }).enterHandler (s.pc + BitVec.ofNat 16 s.params.brkPushOffset) brkVector 7)

/-- JSR (R262): the pushed address is that of the instruction's last byte. -/
def execJsr (addr : Addr) (s : State) : Host.Outcome State Fault Refusal := .next ((s.push16 (s.pc + 2)).jump addr 6)

/-- RTI (R263). -/
def execRti (s : State) : Host.Outcome State Fault Refusal := .next (s.returnFromHandler 6)

/-- RTS (R264). -/
def execRts (s : State) : Host.Outcome State Fault Refusal :=
  let r := s.pull16
  .next (r.2.jump (r.1 + 1) 6)

/-- NOP (R286): no operation. -/
def nopEffect (s : State) : State := s

def execNop (s : State) : Host.Outcome State Fault Refusal := .next (impliedInstr nopEffect 2 s)

/-- PHP (R265): push the packed status, bit 4 as stored. -/
def phpEffect (s : State) : State := s.push s.flags.pack

def execPhp (s : State) : Host.Outcome State Fault Refusal := .next (impliedInstr phpEffect 3 s)

/-- PLP (R266): all seven flags from the pulled byte. -/
def plpEffect (s : State) : State :=
  let r := s.pull
  r.2.setFlags (Flags.unpack r.1)

def execPlp (s : State) : Host.Outcome State Fault Refusal := .next (impliedInstr plpEffect 4 s)

/-- PHA (R267): push the accumulator. -/
def phaEffect (s : State) : State := s.push s.a

def execPha (s : State) : Host.Outcome State Fault Refusal := .next (impliedInstr phaEffect 3 s)

/-- PLA (R268). -/
def plaEffect (s : State) : State :=
  let r := s.pull
  (r.2.setA r.1).setFlags (r.2.flags.setZN r.1)

def execPla (s : State) : Host.Outcome State Fault Refusal := .next (impliedInstr plaEffect 4 s)

/-- TAY (R270): transfer A to Y. -/
def tayEffect (s : State) : State := (s.setY s.a).setFlags (s.flags.setZN s.a)

def execTay (s : State) : Host.Outcome State Fault Refusal := .next (impliedInstr tayEffect 2 s)

/-- TYA (R277): transfer Y to A. -/
def tyaEffect (s : State) : State := (s.setA s.y).setFlags (s.flags.setZN s.y)

def execTya (s : State) : Host.Outcome State Fault Refusal := .next (impliedInstr tyaEffect 2 s)

/-- TXA (R281): transfer X to A. -/
def txaEffect (s : State) : State := (s.setA s.x).setFlags (s.flags.setZN s.x)

def execTxa (s : State) : Host.Outcome State Fault Refusal := .next (impliedInstr txaEffect 2 s)

/-- TAX (R283): transfer A to X. -/
def taxEffect (s : State) : State := (s.setX s.a).setFlags (s.flags.setZN s.a)

def execTax (s : State) : Host.Outcome State Fault Refusal := .next (impliedInstr taxEffect 2 s)

/-- TXS (R282): transfer X to the stack pointer; no flag. -/
def txsEffect (s : State) : State := s.setSp s.x

def execTxs (s : State) : Host.Outcome State Fault Refusal := .next (impliedInstr txsEffect 2 s)

/-- TSX (R284): transfer the stack pointer to X. -/
def tsxEffect (s : State) : State := (s.setX s.sp).setFlags (s.flags.setZN s.sp)

def execTsx (s : State) : Host.Outcome State Fault Refusal := .next (impliedInstr tsxEffect 2 s)

/-- DEY (R269): decrement Y. -/
def deyEffect (s : State) : State := (s.setY (s.y - 1)).setFlags (s.flags.setZN (s.y - 1))

def execDey (s : State) : Host.Outcome State Fault Refusal := .next (impliedInstr deyEffect 2 s)

/-- INY (R271): increment Y. -/
def inyEffect (s : State) : State := (s.setY (s.y + 1)).setFlags (s.flags.setZN (s.y + 1))

def execIny (s : State) : Host.Outcome State Fault Refusal := .next (impliedInstr inyEffect 2 s)

/-- INX (R272): increment X. -/
def inxEffect (s : State) : State := (s.setX (s.x + 1)).setFlags (s.flags.setZN (s.x + 1))

def execInx (s : State) : Host.Outcome State Fault Refusal := .next (impliedInstr inxEffect 2 s)

/-- DEX (R285): decrement X. -/
def dexEffect (s : State) : State := (s.setX (s.x - 1)).setFlags (s.flags.setZN (s.x - 1))

def execDex (s : State) : Host.Outcome State Fault Refusal := .next (impliedInstr dexEffect 2 s)

/-- CLC (R273): clear carry. -/
def clcEffect (s : State) : State := s.setFlags { s.flags with c := false }

def execClc (s : State) : Host.Outcome State Fault Refusal := .next (impliedInstr clcEffect 2 s)

/-- SEC (R274): set carry. -/
def secEffect (s : State) : State := s.setFlags { s.flags with c := true }

def execSec (s : State) : Host.Outcome State Fault Refusal := .next (impliedInstr secEffect 2 s)

/-- CLI (R275): clear interrupt disable. -/
def cliEffect (s : State) : State := s.setFlags { s.flags with i := false }

def execCli (s : State) : Host.Outcome State Fault Refusal := .next (impliedInstr cliEffect 2 s)

/-- SEI (R276): set interrupt disable. -/
def seiEffect (s : State) : State := s.setFlags { s.flags with i := true }

def execSei (s : State) : Host.Outcome State Fault Refusal := .next (impliedInstr seiEffect 2 s)

/-- CLV (R278): clear overflow. -/
def clvEffect (s : State) : State := s.setFlags { s.flags with v := false }

def execClv (s : State) : Host.Outcome State Fault Refusal := .next (impliedInstr clvEffect 2 s)

/-- CLD (R279): clear decimal. -/
def cldEffect (s : State) : State := s.setFlags { s.flags with d := false }

def execCld (s : State) : Host.Outcome State Fault Refusal := .next (impliedInstr cldEffect 2 s)

/-- SED (R280): set decimal. -/
def sedEffect (s : State) : State := s.setFlags { s.flags with d := true }

def execSed (s : State) : Host.Outcome State Fault Refusal := .next (impliedInstr sedEffect 2 s)

end Sys2Proof.Machine
end

