-- ==== Sys2Proof/Machine/Dispatch.lean ====
section
/-! DEFINITION. Each instruction's meaning, one arm per constructor. -/

namespace Sys2Proof.Machine

def exec (i : Instr) (s : State) : Host.Outcome State Fault Refusal :=
  match i with
  -- Group 01 (40_group01_alu)
  | .oraIzx p => Sys2Proof.Machine.execOraIzx p s
  | .oraZp a => Sys2Proof.Machine.execOraZp a s
  | .oraImm v => Sys2Proof.Machine.execOraImm v s
  | .oraAbs addr => Sys2Proof.Machine.execOraAbs addr s
  | .oraIzy p => Sys2Proof.Machine.execOraIzy p s
  | .oraZpx a => Sys2Proof.Machine.execOraZpx a s
  | .oraAby addr => Sys2Proof.Machine.execOraAby addr s
  | .oraAbx addr => Sys2Proof.Machine.execOraAbx addr s
  | .andIzx p => Sys2Proof.Machine.execAndIzx p s
  | .andZp a => Sys2Proof.Machine.execAndZp a s
  | .andImm v => Sys2Proof.Machine.execAndImm v s
  | .andAbs addr => Sys2Proof.Machine.execAndAbs addr s
  | .andIzy p => Sys2Proof.Machine.execAndIzy p s
  | .andZpx a => Sys2Proof.Machine.execAndZpx a s
  | .andAby addr => Sys2Proof.Machine.execAndAby addr s
  | .andAbx addr => Sys2Proof.Machine.execAndAbx addr s
  | .eorIzx p => Sys2Proof.Machine.execEorIzx p s
  | .eorZp a => Sys2Proof.Machine.execEorZp a s
  | .eorImm v => Sys2Proof.Machine.execEorImm v s
  | .eorAbs addr => Sys2Proof.Machine.execEorAbs addr s
  | .eorIzy p => Sys2Proof.Machine.execEorIzy p s
  | .eorZpx a => Sys2Proof.Machine.execEorZpx a s
  | .eorAby addr => Sys2Proof.Machine.execEorAby addr s
  | .eorAbx addr => Sys2Proof.Machine.execEorAbx addr s
  | .adcIzx p => Sys2Proof.Machine.execAdcIzx p s
  | .adcZp a => Sys2Proof.Machine.execAdcZp a s
  | .adcImm v => Sys2Proof.Machine.execAdcImm v s
  | .adcAbs addr => Sys2Proof.Machine.execAdcAbs addr s
  | .adcIzy p => Sys2Proof.Machine.execAdcIzy p s
  | .adcZpx a => Sys2Proof.Machine.execAdcZpx a s
  | .adcAby addr => Sys2Proof.Machine.execAdcAby addr s
  | .adcAbx addr => Sys2Proof.Machine.execAdcAbx addr s
  | .staIzx p => Sys2Proof.Machine.execStaIzx p s
  | .staZp a => Sys2Proof.Machine.execStaZp a s
  | .staAbs addr => Sys2Proof.Machine.execStaAbs addr s
  | .staIzy p => Sys2Proof.Machine.execStaIzy p s
  | .staZpx a => Sys2Proof.Machine.execStaZpx a s
  | .staAby addr => Sys2Proof.Machine.execStaAby addr s
  | .staAbx addr => Sys2Proof.Machine.execStaAbx addr s
  | .ldaIzx p => Sys2Proof.Machine.execLdaIzx p s
  | .ldaZp a => Sys2Proof.Machine.execLdaZp a s
  | .ldaImm v => Sys2Proof.Machine.execLdaImm v s
  | .ldaAbs addr => Sys2Proof.Machine.execLdaAbs addr s
  | .ldaIzy p => Sys2Proof.Machine.execLdaIzy p s
  | .ldaZpx a => Sys2Proof.Machine.execLdaZpx a s
  | .ldaAby addr => Sys2Proof.Machine.execLdaAby addr s
  | .ldaAbx addr => Sys2Proof.Machine.execLdaAbx addr s
  | .cmpIzx p => Sys2Proof.Machine.execCmpIzx p s
  | .cmpZp a => Sys2Proof.Machine.execCmpZp a s
  | .cmpImm v => Sys2Proof.Machine.execCmpImm v s
  | .cmpAbs addr => Sys2Proof.Machine.execCmpAbs addr s
  | .cmpIzy p => Sys2Proof.Machine.execCmpIzy p s
  | .cmpZpx a => Sys2Proof.Machine.execCmpZpx a s
  | .cmpAby addr => Sys2Proof.Machine.execCmpAby addr s
  | .cmpAbx addr => Sys2Proof.Machine.execCmpAbx addr s
  | .sbcIzx p => Sys2Proof.Machine.execSbcIzx p s
  | .sbcZp a => Sys2Proof.Machine.execSbcZp a s
  | .sbcImm v => Sys2Proof.Machine.execSbcImm v s
  | .sbcAbs addr => Sys2Proof.Machine.execSbcAbs addr s
  | .sbcIzy p => Sys2Proof.Machine.execSbcIzy p s
  | .sbcZpx a => Sys2Proof.Machine.execSbcZpx a s
  | .sbcAby addr => Sys2Proof.Machine.execSbcAby addr s
  | .sbcAbx addr => Sys2Proof.Machine.execSbcAbx addr s
  -- Group 10 (41_group10_shift_x)
  | .aslZp a => Sys2Proof.Machine.execAslZp a s
  | .aslAcc => Sys2Proof.Machine.execAslAcc s
  | .aslAbs addr => Sys2Proof.Machine.execAslAbs addr s
  | .aslZpx a => Sys2Proof.Machine.execAslZpx a s
  | .aslAbx addr => Sys2Proof.Machine.execAslAbx addr s
  | .rolZp a => Sys2Proof.Machine.execRolZp a s
  | .rolAcc => Sys2Proof.Machine.execRolAcc s
  | .rolAbs addr => Sys2Proof.Machine.execRolAbs addr s
  | .rolZpx a => Sys2Proof.Machine.execRolZpx a s
  | .rolAbx addr => Sys2Proof.Machine.execRolAbx addr s
  | .lsrZp a => Sys2Proof.Machine.execLsrZp a s
  | .lsrAcc => Sys2Proof.Machine.execLsrAcc s
  | .lsrAbs addr => Sys2Proof.Machine.execLsrAbs addr s
  | .lsrZpx a => Sys2Proof.Machine.execLsrZpx a s
  | .lsrAbx addr => Sys2Proof.Machine.execLsrAbx addr s
  | .rorZp a => Sys2Proof.Machine.execRorZp a s
  | .rorAcc => Sys2Proof.Machine.execRorAcc s
  | .rorAbs addr => Sys2Proof.Machine.execRorAbs addr s
  | .rorZpx a => Sys2Proof.Machine.execRorZpx a s
  | .rorAbx addr => Sys2Proof.Machine.execRorAbx addr s
  | .stxZp a => Sys2Proof.Machine.execStxZp a s
  | .stxAbs addr => Sys2Proof.Machine.execStxAbs addr s
  | .stxZpy a => Sys2Proof.Machine.execStxZpy a s
  | .ldxImm v => Sys2Proof.Machine.execLdxImm v s
  | .ldxZp a => Sys2Proof.Machine.execLdxZp a s
  | .ldxAbs addr => Sys2Proof.Machine.execLdxAbs addr s
  | .ldxZpy a => Sys2Proof.Machine.execLdxZpy a s
  | .ldxAby addr => Sys2Proof.Machine.execLdxAby addr s
  | .decZp a => Sys2Proof.Machine.execDecZp a s
  | .decAbs addr => Sys2Proof.Machine.execDecAbs addr s
  | .decZpx a => Sys2Proof.Machine.execDecZpx a s
  | .decAbx addr => Sys2Proof.Machine.execDecAbx addr s
  | .incZp a => Sys2Proof.Machine.execIncZp a s
  | .incAbs addr => Sys2Proof.Machine.execIncAbs addr s
  | .incZpx a => Sys2Proof.Machine.execIncZpx a s
  | .incAbx addr => Sys2Proof.Machine.execIncAbx addr s
  -- Group 00 (42_group00_misc)
  | .bitZp a => Sys2Proof.Machine.execBitZp a s
  | .bitAbs addr => Sys2Proof.Machine.execBitAbs addr s
  | .jmpAbs addr => Sys2Proof.Machine.execJmpAbs addr s
  | .jmpInd addr => Sys2Proof.Machine.execJmpInd addr s
  | .styZp a => Sys2Proof.Machine.execStyZp a s
  | .styAbs addr => Sys2Proof.Machine.execStyAbs addr s
  | .styZpx a => Sys2Proof.Machine.execStyZpx a s
  | .ldyImm v => Sys2Proof.Machine.execLdyImm v s
  | .ldyZp a => Sys2Proof.Machine.execLdyZp a s
  | .ldyAbs addr => Sys2Proof.Machine.execLdyAbs addr s
  | .ldyZpx a => Sys2Proof.Machine.execLdyZpx a s
  | .ldyAbx addr => Sys2Proof.Machine.execLdyAbx addr s
  | .cpyImm v => Sys2Proof.Machine.execCpyImm v s
  | .cpyZp a => Sys2Proof.Machine.execCpyZp a s
  | .cpyAbs addr => Sys2Proof.Machine.execCpyAbs addr s
  | .cpxImm v => Sys2Proof.Machine.execCpxImm v s
  | .cpxZp a => Sys2Proof.Machine.execCpxZp a s
  | .cpxAbs addr => Sys2Proof.Machine.execCpxAbs addr s
  -- Branches (43_branches)
  | .bpl d => Sys2Proof.Machine.execBpl d s
  | .bmi d => Sys2Proof.Machine.execBmi d s
  | .bvc d => Sys2Proof.Machine.execBvc d s
  | .bvs d => Sys2Proof.Machine.execBvs d s
  | .bcc d => Sys2Proof.Machine.execBcc d s
  | .bcs d => Sys2Proof.Machine.execBcs d s
  | .bne d => Sys2Proof.Machine.execBne d s
  | .beq d => Sys2Proof.Machine.execBeq d s
  -- One-byte instructions and JSR (44_single_byte)
  | .brk => Sys2Proof.Machine.execBrk s
  | .jsr addr => Sys2Proof.Machine.execJsr addr s
  | .rti => Sys2Proof.Machine.execRti s
  | .rts => Sys2Proof.Machine.execRts s
  | .nop => Sys2Proof.Machine.execNop s
  | .php => Sys2Proof.Machine.execPhp s
  | .plp => Sys2Proof.Machine.execPlp s
  | .pha => Sys2Proof.Machine.execPha s
  | .pla => Sys2Proof.Machine.execPla s
  | .tay => Sys2Proof.Machine.execTay s
  | .tya => Sys2Proof.Machine.execTya s
  | .txa => Sys2Proof.Machine.execTxa s
  | .tax => Sys2Proof.Machine.execTax s
  | .txs => Sys2Proof.Machine.execTxs s
  | .tsx => Sys2Proof.Machine.execTsx s
  | .dey => Sys2Proof.Machine.execDey s
  | .iny => Sys2Proof.Machine.execIny s
  | .inx => Sys2Proof.Machine.execInx s
  | .dex => Sys2Proof.Machine.execDex s
  | .clc => Sys2Proof.Machine.execClc s
  | .sec => Sys2Proof.Machine.execSec s
  | .cli => Sys2Proof.Machine.execCli s
  | .sei => Sys2Proof.Machine.execSei s
  | .clv => Sys2Proof.Machine.execClv s
  | .cld => Sys2Proof.Machine.execCld s
  | .sed => Sys2Proof.Machine.execSed s
  -- Undocumented no-operations (45_undocumented_nops)
  | .nopStar04 operand => Sys2Proof.Machine.execNopStar04 operand s
  | .nopStar0C addr => Sys2Proof.Machine.execNopStar0C addr s
  | .nopStar1A => Sys2Proof.Machine.execNopStar1A s
  | .nopStar3A => Sys2Proof.Machine.execNopStar3A s
  | .nopStar44 operand => Sys2Proof.Machine.execNopStar44 operand s
  | .nopStar5A => Sys2Proof.Machine.execNopStar5A s
  | .nopStar64 operand => Sys2Proof.Machine.execNopStar64 operand s
  | .nopStar7A => Sys2Proof.Machine.execNopStar7A s
  | .nopStarDA => Sys2Proof.Machine.execNopStarDA s
  | .nopStarFA => Sys2Proof.Machine.execNopStarFA s
  | .nopStarOther op e => Sys2Proof.Machine.execNopStarOther op e s

end Sys2Proof.Machine
end

