-- ==== Sys2Proof/Machine/PpuDraw.lean ====
section
/-! DEFINITION. Drawing one pixel (61_picture_unit R385 to R400). -/

namespace Sys2Proof.Machine

/-- A background pixel: the 2-bit colour index and the 2-bit palette group (R386). -/
structure BgPixel where
  colour : Nat
  group : Nat
deriving DecidableEq, Repr

/-- The background pixel at `x`, `y` (R386). -/
def State.bgPixel (s : State) (x y : Nat) : BgPixel :=
  let p := s.ppu
  let px := (x + p.scrollX.toNat + 256 * bit p.ctrl 0) % 512
  let py := (y + p.scrollY.toNat + 240 * bit p.ctrl 1) % 480
  let nt := 2 * (py / 240) + px / 256
  let tx := px % 256 / 8
  let ty := py % 240 / 8
  let tile := s.ppuRead (BitVec.ofNat 16 (0x2000 + 0x400 * nt + 32 * ty + tx))
  let attr := s.ppuRead (BitVec.ofNat 16 (0x2000 + 0x400 * nt + 0x3C0 + 8 * (ty / 4) + tx / 4))
  let addr := 0x1000 * bit p.ctrl 4 + 16 * tile.toNat + py % 8
  let lo := s.ppuRead (BitVec.ofNat 16 addr)
  let hi := s.ppuRead (BitVec.ofNat 16 (addr + 8))
  let b := 7 - px % 8
  { colour := 2 * bit hi b + bit lo b
    group := attr.toNat / 2 ^ (4 * (ty / 2 % 2) + 2 * (tx / 2 % 2)) % 4 }

/-- The colour an active slot shows, 0 while its counter runs (R388). -/
def Slot.colour (t : Slot) : Nat := if t.x = 0 then 2 * bit t.hi 7 + bit t.lo 7 else 0

/-- The slot after one pixel (R388): its counter runs down, then its registers shift. -/
def Slot.advance (t : Slot) : Slot :=
  if t.x = 0 then { t with lo := t.lo <<< 1, hi := t.hi <<< 1 } else { t with x := t.x - 1 }

/-- The sprite pixel: colour 0 when no slot shows one (R388). -/
structure SpritePixel where
  colour : Nat
  attr : Byte
  slot : Option Nat
deriving DecidableEq, Repr

/-- The first slot of a list, numbered from `k`, that shows a colour (R388). -/
def firstOpaque : Nat → List Slot → SpritePixel
  | _, [] => { colour := 0, attr := 0, slot := none }
  | k, t :: ts => if t.colour = 0 then firstOpaque (k + 1) ts else { colour := t.colour, attr := t.attr, slot := some k }

/-- The sprite pixel of the eight slots (R388). -/
def Ppu.spritePixel (p : Ppu) : SpritePixel := firstOpaque 0 p.slots.toList

/-- All eight slots after one pixel (R388). -/
def Ppu.advanceSlots (p : Ppu) : Ppu :=
  let v := p.slots
  { p with
    slots := #v[v[0].advance, v[1].advance, v[2].advance, v[3].advance, v[4].advance, v[5].advance, v[6].advance, v[7].advance] }

/-- The 5-bit palette index after priority (R390); `bg` and `sp` are the gated colours. -/
def paletteIndex (bg group sp : Nat) (attr : Byte) : Nat :=
  if sp = 0 then (if bg = 0 then 0 else 4 * group + bg)
  else if bg = 0 then 0x10 + 4 * (attr.toNat % 4) + sp
  else if attr.getLsbD 5 then 4 * group + bg
  else 0x10 + 4 * (attr.toNat % 4) + sp

/-- The 6-bit colour number of a palette index (R399). -/
def State.colourOf (s : State) (idx : Nat) : BitVec 6 := (s.ppuRead (0x3F00 ||| BitVec.ofNat 16 idx)).setWidth 6

/-- The condition of sprite-0 hit under SPRITE0_HIT_RULE = `opaque_overlap` (R392). -/
def Ppu.sprite0Overlap (p : Ppu) (x bg sp : Nat) (slot : Option Nat) : Bool :=
  p.spr0InSlot0 && (slot == some 0) && (sp != 0) && (bg != 0) && (x != 255)

/-- Drawing the pixel of the current position (R385): background, sprites, priority, sprite-0 hit, colour, callback, in this order. -/
def State.drawPixel (s : State) : State :=
  let x := s.ppu.dot - 1
  let y := s.ppu.scanline.toNat
  let b := s.bgPixel x y
  let t := s.ppu.spritePixel
  let bg := if s.ppu.mask.getLsbD 3 then b.colour else 0
  let sp := if s.ppu.mask.getLsbD 4 then t.colour else 0
  let hit :=
    match s.params.sprite0Rule with
    | .never => s.ppu.sprite0Hit
    | .opaqueOverlap => s.ppu.sprite0Hit || s.ppu.sprite0Overlap x bg sp t.slot
  let c := s.colourOf (paletteIndex bg b.group sp t.attr)
  let p := s.ppu.advanceSlots
  (s.setPpu { p with sprite0Hit := hit }).setEvents (s.events ++ [.pixel x y c])

end Sys2Proof.Machine
end

