-- ==== Sys2Proof/Machine/PpuSprites.lean ====
section
/-! DEFINITION. The per-scanline sprite pipeline (61_picture_unit R375 to R380): clearing secondary OAM, evaluation with the buggy overflow scan, loading the
eight slots. Rows and lines are integers here (61, opening paragraph). -/

namespace Sys2Proof.Machine

/-- `H`, the sprite height (61 R360, bit 5 of the control register). -/
def Ppu.spriteHeight (p : Ppu) : Int := if p.ctrl.getLsbD 5 then 16 else 8

/-- `InRange(y)` (R375): false for every `y` on the prerender line, whose number is −1. -/
def Ppu.inRange (p : Ppu) (y : Byte) : Bool :=
  decide (0 ≤ p.scanline - y.toNat) && decide (p.scanline - y.toNat < p.spriteHeight)

/-- Step 1 (R376). -/
def Ppu.clearSecondary (p : Ppu) : Ppu := { p with secondaryOam := Memory.fill 32 0xFF, secCount := 0, secHasSpr0 := false }

/-- Copying OAM sprite `n` to the next free place of secondary OAM (R377). -/
def Ppu.selectSprite (p : Ppu) (n : Nat) : Ppu :=
  let at0 := 4 * p.secCount
  let m := (((p.secondaryOam.write at0 (p.oam.read (4 * n))).write (at0 + 1) (p.oam.read (4 * n + 1))).write
    (at0 + 2) (p.oam.read (4 * n + 2))).write (at0 + 3) (p.oam.read (4 * n + 3))
  { p with secondaryOam := m, secCount := p.secCount + 1, secHasSpr0 := p.secHasSpr0 || n == 0 }

/-- The first loop of R377 over the last `k` sprites: it ends at sprite 64 or when eight are selected, and gives how many sprites it left unexamined. -/
def Ppu.selectFrom : Nat → Ppu → Ppu × Nat
  | 0, p => (p, 0)
  | k + 1, p =>
    if p.secCount < 8 then
      Ppu.selectFrom k (if p.inRange (p.oam.read (4 * (63 - k))) then p.selectSprite (63 - k) else p)
    else (p, k + 1)

/-- The second loop of R377 over the last `k` sprites, "the buggy scan for a ninth sprite": `m` advances with `n`. -/
def Ppu.overflowScan (p : Ppu) : Nat → Nat → Bool
  | 0, _ => false
  | k + 1, m => p.inRange (p.oam.read (4 * (63 - k) + m)) || Ppu.overflowScan p k ((m + 1) % 4)

/-- Step 2 (R377), taken as a whole at SPRITE_EVAL_DOT. It only ever sets the overflow flag. -/
def Ppu.evaluateSprites (p : Ppu) : Ppu :=
  let r := Ppu.selectFrom 64 p
  { r.1 with spriteOverflow := r.1.spriteOverflow || r.1.overflowScan r.2 0 }

/-- The pattern address of a sprite's row (R380). Rows are integers: a row outside 0..15, which only a change of the sprite height between evaluation and
load can give, is an integer too and the address wraps to 16 bits (log 12). -/
def Ppu.spriteAddr (p : Ppu) (tile attr : Byte) (y : Byte) : Addr :=
  let h := p.spriteHeight
  let r : Int := p.scanline - y.toNat
  let row : Int := if attr.getLsbD 7 then h - 1 - r else r
  if h = 8 then BitVec.ofInt 16 ((bit p.ctrl 3 : Int) * 0x1000 + tile.toNat * 16 + row)
  else
    BitVec.ofInt 16
      ((bit tile 0 : Int) * 0x1000 + (tile &&& 0xFE).toNat * 16 + (if row ≥ 8 then 16 else 0) + row % 8)

/-- The contents of slot `k` after the load (R380). -/
def State.loadedSlot (s : State) (k : Nat) : Slot :=
  if k < s.ppu.secCount then
    let sec := s.ppu.secondaryOam
    let attr := sec.read (4 * k + 2)
    let addr := s.ppu.spriteAddr (sec.read (4 * k + 1)) attr (sec.read (4 * k))
    let lo := s.ppuRead addr
    let hi := s.ppuRead (addr + 8)
    { lo := if attr.getLsbD 6 then reverse8 lo else lo
      hi := if attr.getLsbD 6 then reverse8 hi else hi
      x := sec.read (4 * k + 3)
      attr := attr }
  else Slot.empty

/-- Step 3 (R380), all eight slots at dot 257. -/
def State.loadSlots (s : State) : State :=
  s.setPpu { s.ppu with
    slots := #v[s.loadedSlot 0, s.loadedSlot 1, s.loadedSlot 2, s.loadedSlot 3,
                s.loadedSlot 4, s.loadedSlot 5, s.loadedSlot 6, s.loadedSlot 7]
    sprCount := s.ppu.secCount
    spr0InSlot0 := s.ppu.secHasSpr0 }

end Sys2Proof.Machine
end

