-- ==== Sys2Proof/Machine/PpuTick.lean ====
section
/-! DEFINITION. One dot of the picture unit (61_picture_unit R350 to R353) and the vertical blank (R403 to R407). -/

namespace Sys2Proof.Machine

/-- The position of the picture unit in the grid (R350). -/
structure Position where
  scanline : Int
  dot : Nat
  frame : Nat
deriving DecidableEq, Repr

def Ppu.position (p : Ppu) : Position := { scanline := p.scanline, dot := p.dot, frame := p.frame }

/-- Advancing the position by one dot, with the odd-frame skip (R352). -/
def Position.advance (p : Position) : Position :=
  if p.scanline = -1 ∧ p.dot = 339 ∧ p.frame % 2 = 1 then { p with scanline := 0, dot := 0 }
  else if p.dot = 340 then
    (if p.scanline = 260 then { scanline := -1, dot := 0, frame := p.frame + 1 } else { p with scanline := p.scanline + 1, dot := 0 })
  else { p with dot := p.dot + 1 }

/-- R352 on the picture unit. -/
def Ppu.advance (p : Ppu) : Ppu :=
  let q := p.position.advance
  { p with scanline := q.scanline, dot := q.dot, frame := q.frame }

/-- Whether a line runs the sprite pipeline: −1 and 0..239 (R375). -/
def Ppu.pipelineLine (p : Ppu) : Bool := decide (-1 ≤ p.scanline) && decide (p.scanline ≤ 239)

/-- Scanline −1, dot 1 (R406): `sprite_overflow` is set, not cleared. -/
def State.prerenderAction (s : State) : State :=
  if s.ppu.scanline = -1 ∧ s.ppu.dot = 1 then
    s.setPpu { s.ppu with sprite0Hit := false, vblank := false, spriteOverflow := true }
  else s

/-- Dot 1 of a pipeline line (R376). -/
def State.clearAction (s : State) : State :=
  if s.ppu.pipelineLine ∧ s.ppu.dot = 1 then s.setPpu s.ppu.clearSecondary else s

/-- SPRITE_EVAL_DOT of a pipeline line (R377). -/
def State.evaluateAction (s : State) : State :=
  if s.ppu.pipelineLine ∧ s.ppu.dot = s.params.spriteEvalDot then s.setPpu s.ppu.evaluateSprites else s

/-- Dot 257 of a pipeline line (R380). -/
def State.loadAction (s : State) : State :=
  if s.ppu.pipelineLine ∧ s.ppu.dot = 257 then s.loadSlots else s

/-- Dots 1..256 of scanlines 0..239 (R385). -/
def State.drawAction (s : State) : State :=
  if 0 ≤ s.ppu.scanline ∧ s.ppu.scanline ≤ 239 ∧ 1 ≤ s.ppu.dot ∧ s.ppu.dot ≤ 256 then s.drawPixel else s

/-- Scanline 241, dot 1 (R403 to R405): the frame-complete callback, `vblank`, and the NMI if it is enabled. -/
def State.vblankAction (s : State) : State :=
  if s.ppu.scanline = 241 ∧ s.ppu.dot = 1 then
    let t := (s.setEvents (s.events ++ [.frameComplete])).setPpu { s.ppu with vblank := true }
    if s.ppu.ctrl.getLsbD 7 then t.setNmiPending true else t
  else s

/-- The actions of the schedule at the current position, in the order of its rows (R353). -/
def State.act (s : State) : State :=
  s.prerenderAction.clearAction.evaluateAction.loadAction.drawAction.vblankAction

/-- `Tick()` (R351): act on the current position, then advance it. -/
def State.tick (s : State) : State :=
  let t := s.act
  t.setPpu t.ppu.advance

/-- `step(n)` of the picture unit (R351): `Tick()` `n` times. -/
def State.ticks : Nat → State → State
  | 0, s => s
  | n + 1, s => State.ticks n s.tick

end Sys2Proof.Machine
end

