-- ==== Sys2Proof/Machine/Unit.lean ====
section
/-! DEFINITION. Fetching an instruction (30_encoding R159, 20_memory R79), the processor's unit (70 R423), the orchestrator's round (70 R426), and the two
operations defined by repeating them (70 R422, R427). -/

namespace Sys2Proof.Machine

/-- Fetch: the opcode, then the operand bytes that are read, in order (20_memory R79 (1), (2); 45 R302). `none` when the opcode decodes to nothing: no
operand byte is read then (60 R310). The bytes are `CpuRead`s, with their side effects. -/
def State.fetch (s : State) : Option Instr × State :=
  let op := s.cpuRead s.pc
  match shapeOf s.params.undocNops op.1 with
  | none => (none, op.2)
  | some (.one i) => (some i, op.2)
  | some (.unread _ i) => (some i, op.2)
  | some (.two f) =>
    let b := op.2.cpuRead (s.pc + 1)
    (some (f b.1), b.2)
  | some (.three f) =>
    let w := op.2.read16 (s.pc + 1)
    (some (f w.1), w.2)

/-- `Unit()` at an instruction boundary of a running machine (70 R423, 60 R318): an NMI that is pending is serviced; else the opcode is fetched and its
instruction executes, or the machine halts (60 R310). -/
def procUnit (s : State) : Host.Outcome State Fault Refusal :=
  if s.nmiPending then .next s.nmiEntry
  else
    match s.fetch with
    | (none, t) => .next (t.setHalted (some (s.pc, (s.cpuRead s.pc).1)))
    | (some i, t) => exec i t

/-- The picture unit's share of a round (70 R426): three dots for each cycle of the unit just run. -/
def catchUp (before after : State) : State := State.ticks (dotsPerCycle * (after.cycles - before.cycles)) after

/-- One round of the orchestrator on a running machine (70 R426). -/
def runUnit (s : State) : Host.Outcome State Fault Refusal :=
  match procUnit s with
  | .next t => .next (catchUp s t)
  | .fault r => .fault r
  | .refused r => .refused r

/-- One round: a halted machine has no successor (60 R313; log 7); the callbacks recorded are those of this round (log 8). -/
def oneRound (s : State) : Host.Outcome State Fault Refusal :=
  match s.halted with
  | some (pc, op) => .fault (.halted pc op)
  | none => runUnit (s.setEvents [])

/-- The loop of `step(minCycles)` (70 R422), at most `fuel` units: the cycles consumed and the state. -/
def procLoop (minCycles : Int) : Nat → Nat → State → Nat × State
  | 0, consumed, s => (consumed, s)
  | fuel + 1, consumed, s =>
    if (consumed : Int) < minCycles ∧ s.halted = none then
      match procUnit s with
      | .next t => procLoop minCycles fuel (consumed + (t.cycles - s.cycles)) t
      | .fault _ => (consumed, s)
      | .refused _ => (consumed, s)
    else (consumed, s)

/-- `step(minCycles) -> cyclesConsumed` of the processor alone (70 R422). Every unit that does not halt consumes a cycle at least, so `minCycles` units
are enough. -/
def procStep (minCycles : Int) (s : State) : Nat × State := procLoop minCycles minCycles.toNat 0 s

/-- The loop of "run one frame" (70 R427), at most `fuel` rounds: it ends after the round that invokes the frame-complete callback, or when the machine is
halted. -/
def frameLoop : Nat → State → State
  | 0, s => s
  | fuel + 1, s =>
    match oneRound s with
    | .next t => if t.events.contains .frameComplete then t else frameLoop fuel t
    | .fault _ => s
    | .refused _ => s

/-- "Run one frame" (70 R427). A frame is at most 89342 dots and a round that does not halt is three at least. -/
def runFrame (s : State) : State := frameLoop 89342 s

/-- Storing a byte where a processor address is backed by storage, for the host (log 13): RAM, cartridge RAM or the program image through the current
banks. Elsewhere nothing. -/
def State.poke (s : State) (a : Addr) (v : Byte) : State :=
  match regionOf a with
  | .ram i => s.setRam (s.ram.write i v)
  | .cartridge =>
    if 0x8000 ≤ a.toNat then
      s.setCart { s.cart with image := { s.cart.image with prg := s.cart.image.prg.write (s.cart.prgOffset a) v } }
    else if 0x6000 ≤ a.toNat && s.cart.hasPrgRam then
      s.setCart { s.cart with prgRam := s.cart.prgRam.write (a.toNat - 0x6000) v }
    else s
  | .ppu _ => s
  | .dma => s
  | .input1 => s
  | .input2 => s
  | .audio => s
  | .reserved => s

/-- Whether `poke` stores at an address. -/
def State.backed (s : State) (a : Addr) : Bool :=
  match regionOf a with
  | .ram _ => true
  | .cartridge => decide (0x8000 ≤ a.toNat) || (decide (0x6000 ≤ a.toNat) && s.cart.hasPrgRam)
  | .ppu _ => false
  | .dma => false
  | .input1 => false
  | .input2 => false
  | .audio => false
  | .reserved => false

/-- Where the host's instruction is placed: at `pc`, or at 0x8000 where one of its three bytes would fall outside storage (log 13). -/
def State.placeAt (s : State) : Addr :=
  if s.backed s.pc && s.backed (s.pc + 1) && s.backed (s.pc + 2) then s.pc else 0x8000

/-- The machine ready to fetch the three bytes of an opcode-table word as its next instruction (log 13): running, no NMI pending, the bytes stored. -/
def State.placeWord (s : State) (nbits w : Nat) : State :=
  let at0 := s.placeAt
  let t := ((s.setHalted none).setNmiPending false).setPc at0
  match tableBytes nbits w with
  | [b0, b1, b2] => ((t.poke at0 b0).poke (at0 + 1) b1).poke (at0 + 2) b2
  | _ => t

end Sys2Proof.Machine
end

