-- ==== Sys2Proof/Machine/Classes.lean ====
section
/-! DEFINITION. A second reading of the instruction set, by the classes of the cost table (70 R440): each instruction is a mnemonic in an addressing mode.
The statements about a mnemonic in all its modes are made through it; the machine does not use it. -/

namespace Sys2Proof.Machine

/-- Mnemonics that read an operand (the read class of 70 R440). -/
inductive ReadOp where
  | ora
  | and
  | eor
  | adc
  | lda
  | cmp
  | sbc
  | ldx
  | ldy
  | bit
  | cpx
  | cpy
deriving DecidableEq, Repr

/-- Mnemonics that store a register (the write class). -/
inductive StoreOp where
  | sta
  | stx
  | sty
deriving DecidableEq, Repr

/-- Mnemonics that read, modify and write (the read-modify-write class). -/
inductive ModifyOp where
  | asl
  | rol
  | lsr
  | ror
  | dec
  | inc
deriving DecidableEq, Repr

/-- The branches (43 R241 to R248). -/
inductive BranchOp where
  | bpl
  | bmi
  | bvc
  | bvs
  | bcc
  | bcs
  | bne
  | beq
deriving DecidableEq, Repr

/-- One-byte instructions that are no control transfer (44 R260). -/
inductive ImpliedOp where
  | nop
  | php
  | plp
  | pha
  | pla
  | tay
  | tya
  | txa
  | tax
  | txs
  | tsx
  | dey
  | iny
  | inx
  | dex
  | clc
  | sec
  | cli
  | sei
  | clv
  | cld
  | sed
deriving DecidableEq, Repr

/-- An instruction as a mnemonic in an addressing mode. -/
inductive Action where
  | read (op : ReadOp) (m : ReadMode)
  | store (op : StoreOp) (m : MemMode)
  | modify (op : ModifyOp) (m : RmwMode)
  | branch (op : BranchOp) (d : Byte)
  | implied (op : ImpliedOp)
  | jmp (addr : Addr)
  | jmpInd (addr : Addr)
  | jsr (addr : Addr)
  | brk
  | rti
  | rts
  | nopStar (length : Nat)
deriving DecidableEq, Repr

/-- The mnemonic and mode of each row of the opcode table. -/
def action : Instr → Action
  | .oraIzx p => .read .ora (.mem (.izx p))
  | .oraZp a => .read .ora (.mem (.zp a))
  | .oraImm v => .read .ora (.imm v)
  | .oraAbs addr => .read .ora (.mem (.abs addr))
  | .oraIzy p => .read .ora (.mem (.izy p))
  | .oraZpx a => .read .ora (.mem (.zpx a))
  | .oraAby addr => .read .ora (.mem (.aby addr))
  | .oraAbx addr => .read .ora (.mem (.abx addr))
  | .andIzx p => .read .and (.mem (.izx p))
  | .andZp a => .read .and (.mem (.zp a))
  | .andImm v => .read .and (.imm v)
  | .andAbs addr => .read .and (.mem (.abs addr))
  | .andIzy p => .read .and (.mem (.izy p))
  | .andZpx a => .read .and (.mem (.zpx a))
  | .andAby addr => .read .and (.mem (.aby addr))
  | .andAbx addr => .read .and (.mem (.abx addr))
  | .eorIzx p => .read .eor (.mem (.izx p))
  | .eorZp a => .read .eor (.mem (.zp a))
  | .eorImm v => .read .eor (.imm v)
  | .eorAbs addr => .read .eor (.mem (.abs addr))
  | .eorIzy p => .read .eor (.mem (.izy p))
  | .eorZpx a => .read .eor (.mem (.zpx a))
  | .eorAby addr => .read .eor (.mem (.aby addr))
  | .eorAbx addr => .read .eor (.mem (.abx addr))
  | .adcIzx p => .read .adc (.mem (.izx p))
  | .adcZp a => .read .adc (.mem (.zp a))
  | .adcImm v => .read .adc (.imm v)
  | .adcAbs addr => .read .adc (.mem (.abs addr))
  | .adcIzy p => .read .adc (.mem (.izy p))
  | .adcZpx a => .read .adc (.mem (.zpx a))
  | .adcAby addr => .read .adc (.mem (.aby addr))
  | .adcAbx addr => .read .adc (.mem (.abx addr))
  | .staIzx p => .store .sta (.izx p)
  | .staZp a => .store .sta (.zp a)
  | .staAbs addr => .store .sta (.abs addr)
  | .staIzy p => .store .sta (.izy p)
  | .staZpx a => .store .sta (.zpx a)
  | .staAby addr => .store .sta (.aby addr)
  | .staAbx addr => .store .sta (.abx addr)
  | .ldaIzx p => .read .lda (.mem (.izx p))
  | .ldaZp a => .read .lda (.mem (.zp a))
  | .ldaImm v => .read .lda (.imm v)
  | .ldaAbs addr => .read .lda (.mem (.abs addr))
  | .ldaIzy p => .read .lda (.mem (.izy p))
  | .ldaZpx a => .read .lda (.mem (.zpx a))
  | .ldaAby addr => .read .lda (.mem (.aby addr))
  | .ldaAbx addr => .read .lda (.mem (.abx addr))
  | .cmpIzx p => .read .cmp (.mem (.izx p))
  | .cmpZp a => .read .cmp (.mem (.zp a))
  | .cmpImm v => .read .cmp (.imm v)
  | .cmpAbs addr => .read .cmp (.mem (.abs addr))
  | .cmpIzy p => .read .cmp (.mem (.izy p))
  | .cmpZpx a => .read .cmp (.mem (.zpx a))
  | .cmpAby addr => .read .cmp (.mem (.aby addr))
  | .cmpAbx addr => .read .cmp (.mem (.abx addr))
  | .sbcIzx p => .read .sbc (.mem (.izx p))
  | .sbcZp a => .read .sbc (.mem (.zp a))
  | .sbcImm v => .read .sbc (.imm v)
  | .sbcAbs addr => .read .sbc (.mem (.abs addr))
  | .sbcIzy p => .read .sbc (.mem (.izy p))
  | .sbcZpx a => .read .sbc (.mem (.zpx a))
  | .sbcAby addr => .read .sbc (.mem (.aby addr))
  | .sbcAbx addr => .read .sbc (.mem (.abx addr))
  | .aslZp a => .modify .asl (.zp a)
  | .aslAcc => .modify .asl .acc
  | .aslAbs addr => .modify .asl (.abs addr)
  | .aslZpx a => .modify .asl (.zpx a)
  | .aslAbx addr => .modify .asl (.abx addr)
  | .rolZp a => .modify .rol (.zp a)
  | .rolAcc => .modify .rol .acc
  | .rolAbs addr => .modify .rol (.abs addr)
  | .rolZpx a => .modify .rol (.zpx a)
  | .rolAbx addr => .modify .rol (.abx addr)
  | .lsrZp a => .modify .lsr (.zp a)
  | .lsrAcc => .modify .lsr .acc
  | .lsrAbs addr => .modify .lsr (.abs addr)
  | .lsrZpx a => .modify .lsr (.zpx a)
  | .lsrAbx addr => .modify .lsr (.abx addr)
  | .rorZp a => .modify .ror (.zp a)
  | .rorAcc => .modify .ror .acc
  | .rorAbs addr => .modify .ror (.abs addr)
  | .rorZpx a => .modify .ror (.zpx a)
  | .rorAbx addr => .modify .ror (.abx addr)
  | .stxZp a => .store .stx (.zp a)
  | .stxAbs addr => .store .stx (.abs addr)
  | .stxZpy a => .store .stx (.zpy a)
  | .ldxImm v => .read .ldx (.imm v)
  | .ldxZp a => .read .ldx (.mem (.zp a))
  | .ldxAbs addr => .read .ldx (.mem (.abs addr))
  | .ldxZpy a => .read .ldx (.mem (.zpy a))
  | .ldxAby addr => .read .ldx (.mem (.aby addr))
  | .decZp a => .modify .dec (.zp a)
  | .decAbs addr => .modify .dec (.abs addr)
  | .decZpx a => .modify .dec (.zpx a)
  | .decAbx addr => .modify .dec (.abx addr)
  | .incZp a => .modify .inc (.zp a)
  | .incAbs addr => .modify .inc (.abs addr)
  | .incZpx a => .modify .inc (.zpx a)
  | .incAbx addr => .modify .inc (.abx addr)
  | .bitZp a => .read .bit (.mem (.zp a))
  | .bitAbs addr => .read .bit (.mem (.abs addr))
  | .jmpAbs addr => .jmp addr
  | .jmpInd addr => .jmpInd addr
  | .styZp a => .store .sty (.zp a)
  | .styAbs addr => .store .sty (.abs addr)
  | .styZpx a => .store .sty (.zpx a)
  | .ldyImm v => .read .ldy (.imm v)
  | .ldyZp a => .read .ldy (.mem (.zp a))
  | .ldyAbs addr => .read .ldy (.mem (.abs addr))
  | .ldyZpx a => .read .ldy (.mem (.zpx a))
  | .ldyAbx addr => .read .ldy (.mem (.abx addr))
  | .cpyImm v => .read .cpy (.imm v)
  | .cpyZp a => .read .cpy (.mem (.zp a))
  | .cpyAbs addr => .read .cpy (.mem (.abs addr))
  | .cpxImm v => .read .cpx (.imm v)
  | .cpxZp a => .read .cpx (.mem (.zp a))
  | .cpxAbs addr => .read .cpx (.mem (.abs addr))
  | .bpl d => .branch .bpl d
  | .bmi d => .branch .bmi d
  | .bvc d => .branch .bvc d
  | .bvs d => .branch .bvs d
  | .bcc d => .branch .bcc d
  | .bcs d => .branch .bcs d
  | .bne d => .branch .bne d
  | .beq d => .branch .beq d
  | .brk => .brk
  | .jsr addr => .jsr addr
  | .rti => .rti
  | .rts => .rts
  | .nop => .implied .nop
  | .php => .implied .php
  | .plp => .implied .plp
  | .pha => .implied .pha
  | .pla => .implied .pla
  | .tay => .implied .tay
  | .tya => .implied .tya
  | .txa => .implied .txa
  | .tax => .implied .tax
  | .txs => .implied .txs
  | .tsx => .implied .tsx
  | .dey => .implied .dey
  | .iny => .implied .iny
  | .inx => .implied .inx
  | .dex => .implied .dex
  | .clc => .implied .clc
  | .sec => .implied .sec
  | .cli => .implied .cli
  | .sei => .implied .sei
  | .clv => .implied .clv
  | .cld => .implied .cld
  | .sed => .implied .sed
  | .nopStar04 _ => .nopStar 2
  | .nopStar0C _ => .nopStar 3
  | .nopStar1A => .nopStar 1
  | .nopStar3A => .nopStar 1
  | .nopStar44 _ => .nopStar 2
  | .nopStar5A => .nopStar 1
  | .nopStar64 _ => .nopStar 2
  | .nopStar7A => .nopStar 1
  | .nopStarDA => .nopStar 1
  | .nopStarFA => .nopStar 1
  | .nopStarOther _ e => .nopStar e.length

/-- The length of an instruction by its mode (30 R142). -/
def RmwMode.length : RmwMode → Nat
  | .acc => 1
  | .zp _ => 2
  | .zpx _ => 2
  | .abs _ => 3
  | .abx _ => 3

/-- The cost of the read-modify-write class (41 R200, 70 R440). -/
def RmwMode.cost : RmwMode → Nat
  | .acc => 2
  | .zp _ => 5
  | .zpx _ => 6
  | .abs _ => 6
  | .abx _ => 7

/-- The memory operand of a read-modify-write instruction; none in mode ACC. -/
def RmwMode.mem : RmwMode → Option MemMode
  | .acc => none
  | .zp a => some (.zp a)
  | .zpx a => some (.zpx a)
  | .abs addr => some (.abs addr)
  | .abx addr => some (.abx addr)

/-- The length of an instruction by its mode (30 R142, R143). -/
def Action.length : Action → Nat
  | .read _ m => m.length
  | .store _ m => m.length
  | .modify _ m => m.length
  | .branch _ _ => 2
  | .implied _ => 1
  | .jmp _ => 3
  | .jmpInd _ => 3
  | .jsr _ => 3
  | .brk => 1
  | .rti => 1
  | .rts => 1
  | .nopStar n => n

/-- Whether the branch's flag has the value it asks for (43 R241 to R248). -/
def BranchOp.taken : BranchOp → Flags → Bool
  | .bpl, f => !f.n
  | .bmi, f => f.n
  | .bvc, f => !f.v
  | .bvs, f => f.v
  | .bcc, f => !f.c
  | .bcs, f => f.c
  | .bne, f => !f.z
  | .beq, f => f.z

/-- The register a store instruction stores. -/
def StoreOp.value : StoreOp → State → Byte
  | .sta, s => s.a
  | .stx, s => s.x
  | .sty, s => s.y

end Sys2Proof.Machine
end

