-- ==== Sys2Proof/WellFormed.lean ====
section
/-! DEFINITION. Which terms of `Instr` are instructions, and which parameters are admissible. Every row constructor is well formed whatever its operand
(30_encoding R164: no operand value is illegal); the general `NOP*` and the table it comes from have the constraints of 45_undocumented_nops R300. -/

namespace Sys2Proof

/-- R300: a length of 1, 2 or 3, and an operand read only where there is an operand. -/
def NopEntry.wf (e : NopEntry) : Bool :=
  decide (1 ≤ e.length) && decide (e.length ≤ 3) && (!e.readsOperand || decide (2 ≤ e.length))

/-- A member of UNDOC_NOP_TABLE: its opcode is not documented and its entry is admissible (R300). -/
def nopMemberWf (op : Byte) (e : NopEntry) : Bool := (documentedShape op).isNone && e.wf

/-- A term is an instruction of a machine whose UNDOC_NOP_TABLE is `nops`: a row constructor of the table's ten is in `nops` with the default entry, and
the general constructor stands for a member of `nops` that has no row of its own. -/
def Instr.wf (nops : List (Byte × NopEntry)) : Instr → Bool
  | .nopStarOther op e => nopMemberWf op e && (nops.lookup op == some e) && !(defaultNops.lookup op == some e)
  | .nopStar04 _ => nops.lookup 0x04 == defaultNops.lookup 0x04
  | .nopStar0C _ => nops.lookup 0x0C == defaultNops.lookup 0x0C
  | .nopStar1A => nops.lookup 0x1A == defaultNops.lookup 0x1A
  | .nopStar3A => nops.lookup 0x3A == defaultNops.lookup 0x3A
  | .nopStar44 _ => nops.lookup 0x44 == defaultNops.lookup 0x44
  | .nopStar5A => nops.lookup 0x5A == defaultNops.lookup 0x5A
  | .nopStar64 _ => nops.lookup 0x64 == defaultNops.lookup 0x64
  | .nopStar7A => nops.lookup 0x7A == defaultNops.lookup 0x7A
  | .nopStarDA => nops.lookup 0xDA == defaultNops.lookup 0xDA
  | .nopStarFA => nops.lookup 0xFA == defaultNops.lookup 0xFA
  | _ => true

/-- Every member of the table is admissible (R300). -/
def nopTableWf (nops : List (Byte × NopEntry)) : Bool := nops.all fun p => nopMemberWf p.1 p.2

/-- The admissible values of the parameters (00_scope R6). -/
def Params.wf (p : Params) : Bool :=
  nopTableWf p.undocNops && decide (65 ≤ p.spriteEvalDot) && decide (p.spriteEvalDot ≤ 256) && (p.brkPushOffset == 1 || p.brkPushOffset == 2)

end Sys2Proof
end

