-- ==== Sys2Proof/Safety.lean ====
section
/-! DEFINITION. What a good state is, in the terms the statements use: the invariant every step keeps, the addresses whose reads have no side effect, and
the spec's numbers and tables the statements speak of. -/

namespace Sys2Proof.Machine

/-- A running machine (10_state R32). -/
abbrev State.Running (s : State) : Prop := s.halted = none

/-- A processor address whose read has no side effect: everything but 0x2000 to 0x3FFF, 0x4016 and 0x4017 (20_memory R77, which lists the reads that
have one). -/
def quiet (a : Addr) : Bool :=
  match regionOf a with
  | .ram _ => true
  | .ppu _ => false
  | .dma => true
  | .input1 => false
  | .input2 => false
  | .audio => true
  | .reserved => true
  | .cartridge => true

/-- The byte the processor would read at an address. -/
def State.peek (s : State) (a : Addr) : Byte := (s.cpuRead a).1

/-- Whether the registers, in whatever state, are those of the variant an identifier selects (21 R102). -/
def MapperRegs.hasId (r : MapperRegs) (mapperId : Byte) : Bool :=
  match r with
  | .fixedBank => mapperId == 0
  | .serial _ => mapperId == 1
  | .bankSelect _ => mapperId == 3
  | .dual _ => mapperId == 4

/-- The bounds on a variant's registers: `shift_count` in 0..4 (10_state R41); a bank register of the dual variant holds a clamped value (21 R121). -/
def MapperRegs.inBounds : MapperRegs → Bool
  | .fixedBank => true
  | .bankSelect _ => true
  | .serial r => decide (r.shiftCount ≤ 4)
  | .dual r =>
    !r.bankReg[0].getLsbD 0 && !r.bankReg[1].getLsbD 0 && decide (r.bankReg[6].toNat < 64) && decide (r.bankReg[7].toNat < 64)

/-- A cartridge that load can give, in any state a run can bring it to. -/
abbrev Cart.Good (c : Cart) : Prop :=
  1 ≤ c.image.prgBanks ∧ c.image.prg.fits c.image.prgSize = true ∧ c.chr.fits c.image.chrSize = true ∧ c.prgRam.fits 8192 = true
    ∧ (c.mirroring = .fourScreen ↔ c.image.mirroring = .fourScreen)
    ∧ c.regs.hasId c.image.mapperId = true ∧ c.regs.inBounds = true

/-- The grid: `dot` in 0..340 and `scanline` in −1..260 (10_state R35), and dot 340 of the prerender line does not occur on odd frames (61 R352). -/
abbrev Position.Good (p : Position) : Prop :=
  -1 ≤ p.scanline ∧ p.scanline ≤ 260 ∧ p.dot ≤ 340 ∧ (p.scanline = -1 → p.frame % 2 = 1 → p.dot ≤ 339)

/-- The picture unit in any state a run can bring it to: the grid, at most eight sprites (61 R377), empty slots above `spr_count` (61 R388), each array
within its size and in canonical form. -/
abbrev Ppu.Good (p : Ppu) (nametableSize : Nat) : Prop :=
  p.position.Good ∧ p.sprCount ≤ 8 ∧ p.secCount ≤ 8
    ∧ (∀ k : Fin 8, p.sprCount ≤ k.val → p.slots[k] = Slot.empty)
    ∧ p.oam.fits 256 = true ∧ p.secondaryOam.fits 32 = true ∧ p.palette.fits 32 = true ∧ p.nametable.fits nametableSize = true

/-- The invariant of the machine. -/
abbrev State.Inv (s : State) : Prop :=
  s.ram.fits 2048 = true ∧ s.cart.Good ∧ s.ppu.Good s.cart.image.nametableSize
    ∧ s.input1.cursor ≤ 8 ∧ s.input2.cursor ≤ 8 ∧ s.params.wf = true
    ∧ (s.params.sprite0Rule = .never → s.ppu.sprite0Hit = false)

/-- Where the picture unit stands after `n` ticks from its power-on position (10_state R48, 61 R352). -/
def positionAfter : Nat → Position
  | 0 => { scanline := 0, dot := 0, frame := 0 }
  | n + 1 => (positionAfter n).advance

/-- "After every round, the number of ticks the picture unit has made since power-on is `3 × cycles`" (70 R426). -/
abbrev State.Synced (s : State) : Prop := s.ppu.position = positionAfter (3 * s.cycles)

/-! ## Words the statements use: numbers and tables written from the spec, beside the machine's own definitions -/

/-- What a processor unit's outcome leads to: three dots for each cycle consumed since `s` (70 R426). -/
def roundAfter (o : Host.Outcome State Fault Refusal) (s : State) : Host.Outcome State Fault Refusal :=
  match o with
  | .next t => .next (State.ticks (3 * (t.cycles - s.cycles)) t)
  | .fault r => .fault r
  | .refused r => .refused r

/-- The 95 opcodes 30_encoding R163 lists. -/
def illegalOpcodes : List Byte :=
  [0x02, 0x03, 0x07, 0x0B, 0x0F, 0x12, 0x13, 0x14, 0x17, 0x1B, 0x1C, 0x1F, 0x22, 0x23, 0x27, 0x2B]
    ++ [0x2F, 0x32, 0x33, 0x34, 0x37, 0x3B, 0x3C, 0x3F, 0x42, 0x43, 0x47, 0x4B, 0x4F, 0x52, 0x53, 0x54, 0x57]
    ++ [0x5B, 0x5C, 0x5F, 0x62, 0x63, 0x67, 0x6B, 0x6F, 0x72, 0x73, 0x74, 0x77, 0x7B, 0x7C, 0x7F, 0x80, 0x82]
    ++ [0x83, 0x87, 0x89, 0x8B, 0x8F, 0x92, 0x93, 0x97, 0x9B, 0x9C, 0x9E, 0x9F, 0xA3, 0xA7, 0xAB, 0xAF, 0xB2]
    ++ [0xB3, 0xB7, 0xBB, 0xBF, 0xC2, 0xC3, 0xC7, 0xCB, 0xCF, 0xD2, 0xD3, 0xD4, 0xD7, 0xDB, 0xDC, 0xDF, 0xE2]
    ++ [0xE3, 0xE7, 0xEB, 0xEF, 0xF2, 0xF3, 0xF4, 0xF7, 0xFB, 0xFC, 0xFF]

/-- The memory mode of an instruction that has one. -/
def Action.memMode : Action → Option MemMode
  | .read _ (.mem m) => some m
  | .read _ (.imm _) => none
  | .store _ m => some m
  | .modify _ m => m.mem
  | .branch _ _ => none
  | .implied _ => none
  | .jmp _ => none
  | .jmpInd _ => none
  | .jsr _ => none
  | .brk => none
  | .rti => none
  | .rts => none
  | .nopStar _ => none

/-- The memory mode whose effective address an instruction stores to: the stores and the read-modify-write instructions on memory. -/
def Action.storeMode : Action → Option MemMode
  | .store _ m => some m
  | .modify _ m => m.mem
  | .read _ _ => none
  | .branch _ _ => none
  | .implied _ => none
  | .jmp _ => none
  | .jmpInd _ => none
  | .jsr _ => none
  | .brk => none
  | .rti => none
  | .rts => none
  | .nopStar _ => none

/-- The control transfers, which write `PC` as their own rules say (10_state R21; a branch is one whether or not it is taken). -/
def Action.writesPc : Action → Bool
  | .branch _ _ => true
  | .jmp _ => true
  | .jmpInd _ => true
  | .jsr _ => true
  | .brk => true
  | .rti => true
  | .rts => true
  | .read _ _ => false
  | .store _ _ => false
  | .modify _ _ => false
  | .implied _ => false
  | .nopStar _ => false

/-- Whether an instruction stores or pushes. -/
def Action.stores : Action → Bool
  | .store _ _ => true
  | .modify _ m => m.mem.isSome
  | .implied op => op == .php || op == .pha
  | .jsr _ => true
  | .brk => true
  | .read _ _ => false
  | .branch _ _ => false
  | .jmp _ => false
  | .jmpInd _ => false
  | .rti => false
  | .rts => false
  | .nopStar _ => false

/-- The new value of a read-modify-write instruction, as a number, from the old value and the carry (41 R201 to R204, R207, R208). -/
def ModifyOp.newValue (op : ModifyOp) (v : Nat) (c : Bool) : Nat :=
  match op with
  | .asl => 2 * v % 256
  | .rol => (2 * v + c.toNat) % 256
  | .lsr => v / 2
  | .ror => v / 2 + 128 * c.toNat
  | .dec => (v + 255) % 256
  | .inc => (v + 1) % 256

/-- The carry after a read-modify-write instruction. -/
def ModifyOp.carryOut (op : ModifyOp) (v : Nat) (c : Bool) : Bool :=
  match op with
  | .asl => decide (128 ≤ v)
  | .rol => decide (128 ≤ v)
  | .lsr => decide (v % 2 = 1)
  | .ror => decide (v % 2 = 1)
  | .dec => c
  | .inc => c

/-- The flag a branch tests (43 R240, field `xx`). -/
def BranchOp.flag : BranchOp → Flags → Bool
  | .bpl, f => f.n
  | .bmi, f => f.n
  | .bvc, f => f.v
  | .bvs, f => f.v
  | .bcc, f => f.c
  | .bcs, f => f.c
  | .bne, f => f.z
  | .beq, f => f.z

/-- The value the flag must have (43 R240, field `y`). -/
def BranchOp.polarity : BranchOp → Bool
  | .bpl => false
  | .bmi => true
  | .bvc => false
  | .bvs => true
  | .bcc => false
  | .bcs => true
  | .bne => false
  | .beq => true

/-- The state with the flags that only `Pack` reads replaced (10_state R24). -/
def State.withDIB (s : State) (d i b : Bool) : State := { s with flags := { s.flags with d := d, i := i, b := b } }

/-- The state with another DUMMY_READ_POLICY (30_encoding R158). -/
def State.withDummyRead (s : State) (policy : DummyReadPolicy) : State := { s with params := { s.params with dummyRead := policy } }

/-- `n` reads of one address, in order: the bytes and the state after them. -/
def readTimes : Nat → Addr → State → List Byte × State
  | 0, _, s => ([], s)
  | n + 1, a, s => ((s.cpuRead a).1 :: (readTimes n a (s.cpuRead a).2).1, (readTimes n a (s.cpuRead a).2).2)

/-- `Bank(image, size, index, a)` of 21 R103. -/
def bankByte (image : Memory) (len size index a : Nat) : Byte := image.read ((index % max 1 (len / size) * size + a % size) % len)

/-- The bank of each logical nametable (21 R105). -/
def nametableBanks : Mirroring → List Nat
  | .horizontal => [0, 0, 1, 1]
  | .vertical => [0, 1, 0, 1]
  | .singleA => [0, 0, 0, 0]
  | .singleB => [1, 1, 1, 1]
  | .fourScreen => [0, 1, 2, 3]

/-- Whether two picture-unit bus addresses reach the same stored byte, through mirrors, aliases and banks (20_memory R84, 21 R107). -/
def samePpuByte (c : Cart) (a b : Addr) : Bool :=
  match ppuCell c a, ppuCell c b with
  | .pattern i, .pattern j => c.chrOffset i == c.chrOffset j
  | .nametable i, .nametable j => i == j
  | .palette i, .palette j => i == j
  | _, _ => false

/-- `InRange(y)` of 61 R375. -/
def spriteInRange (scanline : Int) (ctrl y : Byte) : Bool :=
  decide (0 ≤ scanline - y.toNat ∧ scanline - y.toNat < if ctrl.getLsbD 5 then 16 else 8)

end Sys2Proof.Machine
end

