-- ==== Sys2Proof/Certificates/Slice0/Obligations.lean ====
section
/-! DEFINITION. The statements about the machine, for the provers. They follow the numbered rules of spec/; where a rule rests on a decision of the spec
(92_eei_decisions) or of this model (notes/assumptions), the docstring says which. OBLIGATIONS.json lists them. -/

open Sys2Proof Sys2Proof.Machine

/-! ## Encoding and fetch -/

/-- R140, R142, R159, R160: every instruction, with every operand its encoding admits and under every UNDOC_NOP_TABLE, is read back from its own bytes,
whatever bytes follow. -/
def Obligations.DecodeInvertsEncode : Prop :=
  ∀ (nops : List (Byte × NopEntry)) (i : Instr) (rest : List Byte), i.wf nops = true → decode nops (encode i ++ rest) = .ok (i, rest)

/-- R159, R300, R302: what the decoder reads, from any bytes and under any admissible UNDOC_NOP_TABLE, is an instruction of that machine; it takes as many
bytes as the instruction is long; its opcode is the first byte; and where the instruction keeps all its operand bytes, that is everywhere but in the
members of the table that have no row of their own, those bytes are its encoding. -/
def Obligations.EncodeInvertsDecode : Prop :=
  ∀ (nops : List (Byte × NopEntry)) (bytes : List Byte) (i : Instr) (rest : List Byte), nopTableWf nops = true → decode nops bytes = .ok (i, rest) →
    i.wf nops = true ∧ bytes = bytes.take i.length ++ rest ∧ i.length + rest.length = bytes.length ∧ bytes.head? = some (opcode i)
      ∧ ((∀ op e, i ≠ .nopStarOther op e) → bytes = encode i ++ rest)

/-- R163, R310 (with decision D11): under the default UNDOC_NOP_TABLE exactly the 95 listed opcodes decode to nothing; and under any table, a step on an
opcode that decodes to nothing makes the one read of the opcode, records the address and the opcode in `halted`, and changes nothing else; the
picture unit stands still. -/
def Obligations.IllegalOpcodesHalt : Prop :=
  (∀ op : Byte, (shapeOf defaultNops op).isNone = illegalOpcodes.contains op)
    ∧ illegalOpcodes.length = 95
    ∧ ∀ s : State, s.Running → s.nmiPending = false → shapeOf s.params.undocNops (s.peek s.pc) = none →
        step s = .next { ((s.setEvents []).cpuRead s.pc).2 with halted := some (s.pc, s.peek s.pc) }

/-- Words written out from the encoding tables (R180, R200, R220, R240, R260, R301; examples of R165, R242 and the families). -/
def Obligations.SampleWords : Prop :=
  [(16, 0x10A9), (24, 0x1234BD), (16, 0x10B1), (24, 0x02008D), (8, 0x0A), (24, 0x02FF6C), (16, 0xFC30), (8, 0x00), (24, 0x900020), (8, 0x1A)].map
      (fun w => decodeTableWord w.1 w.2)
    = [some (.ldaImm 0x10), some (.ldaAbx 0x1234), some (.ldaIzy 0x10), some (.staAbs 0x0200), some .aslAcc, some (.jmpInd 0x02FF), some (.bmi 0xFC),
        some .brk, some (.jsr 0x9000), some .nopStar1A]

/-- R423, R426: when the machine runs, no NMI is pending, and the three bytes at the program counter are read without side effect and decode to `i`, a
step is `exec i` at that state (with the callback record emptied: the model's own field, log 8), then three dots for each cycle it consumed. -/
def Obligations.StepRunsDecodedInstruction : Prop :=
  ∀ (s : State) (i : Instr) (rest : List Byte), s.Running → s.nmiPending = false →
    quiet s.pc = true → quiet (s.pc + 1) = true → quiet (s.pc + 2) = true →
    decode s.params.undocNops [s.peek s.pc, s.peek (s.pc + 1), s.peek (s.pc + 2)] = .ok (i, rest) →
    ∃ t, exec i (s.setEvents []) = .next t ∧ step s = .next (State.ticks (3 * (t.cycles - s.cycles)) t)

/-- R79 (1), (2) (decision D10), R302: the fetch from any address, device windows included: the opcode, then exactly the operand bytes the instruction
reads, low address first, each read with its side effects; then the instruction executes in the state those reads left. -/
def Obligations.FetchReadsInOrder : Prop :=
  ∀ s : State, s.Running → s.nmiPending = false →
    let op := (s.setEvents []).cpuRead s.pc
    let b1 := op.2.cpuRead (s.pc + 1)
    let b2 := b1.2.cpuRead (s.pc + 2)
    (∀ i, shapeOf s.params.undocNops op.1 = some (.one i) → step s = roundAfter (exec i op.2) s)
      ∧ (∀ n i, shapeOf s.params.undocNops op.1 = some (.unread n i) → step s = roundAfter (exec i op.2) s)
      ∧ (∀ f, shapeOf s.params.undocNops op.1 = some (.two f) → step s = roundAfter (exec (f b1.1) b1.2) s)
      ∧ (∀ f, shapeOf s.params.undocNops op.1 = some (.three f) → step s = roundAfter (exec (f (word b2.1 b1.1)) b2.2) s)

/-- R313 (decision D11; log 7): a halted machine has no successor, neither `step(minCycles)` nor "run one frame" changes it, and `reset()` does not clear
the mark. -/
def Obligations.HaltedMachineStands : Prop :=
  ∀ (s : State) (pc : Addr) (op : Byte) (n : Int), s.halted = some (pc, op) →
    step s = .fault (.halted pc op) ∧ procStep n s = (0, s) ∧ runFrame s = s ∧ s.resetProcessor.halted = some (pc, op)

/-! ## Reset, interrupts and returns -/

/-- R46, R420 (decision D8): the processor's reset, from any state and with any mapper, as an equation; and the clauses of R46, read off the machine right
after power-on with any cartridge, parameters and RAM contents. -/
def Obligations.ProcessorReset : Prop :=
  (∀ s : State, s.resetProcessor =
    { s with sp := 0xFD, flags := { s.flags with i := true, b := true }, nmiPending := false,
             pc := word (s.cart.cpuRead 0xFFFD) (s.cart.cpuRead 0xFFFC) })
    ∧ ∀ (cart : Cart) (params : Params) (ram : Memory),
      let s := powerOn cart params ram
      s.pc = word (s.peek 0xFFFD) (s.peek 0xFFFC) ∧ s.sp = 0xFD ∧ s.flags.i = true ∧ s.flags.b = true

/-- R47, R48, R49, R50 (decisions D8, D24, D35, D39; logs 2, 3): every register after power-on with any cartridge, parameters and RAM contents; the mapper's
registers, mirroring mode and RAM right after the load of any image; and what `State.reset` is: power-on with the placeholder cartridge of log 1, the
default parameters (log 5) and RAM_INIT all zero (log 4). -/
def Obligations.PowerOnState : Prop :=
  (∀ (cart : Cart) (params : Params) (ram : Memory),
    powerOn cart params ram =
      { a := 0, x := 0, y := 0, sp := 0xFD, pc := word (cart.cpuRead 0xFFFD) (cart.cpuRead 0xFFFC)
        flags := { c := false, z := false, i := true, d := false, b := true, v := false, n := false }
        nmiPending := false, cycles := 0, halted := none, ram := ram, cart := cart
        ppu :=
          { scanline := 0, dot := 0, frame := 0, ctrl := 0, mask := 0, vblank := false, sprite0Hit := false, spriteOverflow := false
            lastWrite := 0, oamAddr := 0, w := false, scrollX := 0, scrollY := 0, vramAddr := 0
            oam := [], secondaryOam := [], palette := [], nametable := []
            slots := Vector.replicate 8 { lo := 0, hi := 0, x := 0, attr := 0 }
            sprCount := 0, secCount := 0, spr0InSlot0 := false, secHasSpr0 := false }
        input1 := { strobe := false, cursor := 0, samples := [] }, input2 := { strobe := false, cursor := 0, samples := [] }
        params := params, drawn := 0, events := [] })
    ∧ (∀ (bytes : List Byte) (cart : Cart), loadImage bytes = .ok cart →
      (cart.image.mapperId = 0 → cart.regs = .fixedBank)
        ∧ (cart.image.mapperId = 1 → cart.regs = .serial
            { shift := 0, shiftCount := 0, control := 0b01100, chrBank0 := 0, chrBank1 := 0, prgBank := 0 })
        ∧ (cart.image.mapperId = 3 → cart.regs = .bankSelect 0)
        ∧ (cart.image.mapperId = 4 → cart.regs = .dual
            { bankSelect := 0, bankReg := Vector.replicate 8 0, mirrorReg := false, irqLatch := 0, irqCounter := 0
              irqReload := false, irqEnable := false })
        ∧ cart.mirroring = cart.image.mirroring ∧ cart.prgRam = [] ∧ (cart.image.chrIsRam = true → cart.chr = []))
    ∧ State.reset = powerOn
        { image := { prgBanks := 2, chrBanks := 0, mapperId := 0, mirroring := .horizontal, prg := [] }
          regs := .fixedBank, mirroring := .horizontal, chr := [], prgRam := [] }
        { undocNops :=
            ([0x1A, 0x3A, 0x5A, 0x7A, 0xDA, 0xFA] : List Byte).map (fun op => (op, { length := 1, readsOperand := false }))
              ++ ([0x04, 0x44, 0x64] : List Byte).map (fun op => (op, { length := 2, readsOperand := true }))
              ++ [(0x0C, { length := 3, readsOperand := true })]
          dummyRead := .never, warmupCycles := 29658, spriteEvalDot := 256, sprite0Rule := .never, brkPushOffset := 2 } []
    ∧ State.reset.flags.pack = 0x34

/-- R315 to R318, R321, R324 (decisions D1, D3, D4): when an NMI is pending, a step services it, whatever `I` holds and whatever stands at the program
counter: it pushes the address of the next instruction and the flags as stored, sets `I`, loads the vector at 0xFFFA, and costs 7 cycles, so 21 dots. -/
def Obligations.NmiIsServicedFirst : Prop :=
  ∀ s : State, s.Running → s.nmiPending = true →
    step s = .next (State.ticks 21
      { s with
        nmiPending := false, events := [], sp := s.sp - 3, flags := { s.flags with i := true }
        ram := ((s.ram.write (0x100 + s.sp.toNat) (hi s.pc)).write (0x100 + (s.sp - 1).toNat) (lo s.pc)).write (0x100 + (s.sp - 2).toNat) s.flags.pack
        pc := word (s.cart.cpuRead 0xFFFB) (s.cart.cpuRead 0xFFFA), cycles := s.cycles + 7 })

/-- R261, R319 (decisions D1, D2, D3): BRK. -/
def Obligations.BrkResult : Prop :=
  ∀ s : State, exec .brk s = .next
    { s with
      sp := s.sp - 3, flags := { s.flags with b := true, i := true }
      ram := ((s.ram.write (0x100 + s.sp.toNat) (hi (s.pc + BitVec.ofNat 16 s.params.brkPushOffset))).write (0x100 + (s.sp - 1).toNat)
          (lo (s.pc + BitVec.ofNat 16 s.params.brkPushOffset))).write (0x100 + (s.sp - 2).toNat) { s.flags with b := true }.pack
      pc := word (s.cart.cpuRead 0xFFFF) (s.cart.cpuRead 0xFFFE), cycles := s.cycles + 7 }

/-- R222, R223, R156, R262, R263, R264: the jumps, the call and the returns. JMP indirect takes the high byte of its target from the pointer's own page, by one
bus read after that of the low byte. JSR pushes the address of its own last byte; RTS continues one byte after the address it pulls; RTI pulls the status,
then the address, and uses it as it is. Nothing else changes but the cycle count. -/
def Obligations.ControlTransferResults : Prop :=
  ∀ (s : State) (addr : Addr),
    exec (.jmpAbs addr) s = .next { s with pc := addr, cycles := s.cycles + 3 }
      ∧ (let low := s.cpuRead addr
         let high := low.2.cpuRead (BitVec.ofNat 16 (addr.toNat / 256 * 256 + (addr.toNat + 1) % 256))
         exec (.jmpInd addr) s = .next { high.2 with pc := word high.1 low.1, cycles := s.cycles + 5 })
      ∧ exec (.jsr addr) s = .next
        { s with
          sp := s.sp - 2, pc := addr, cycles := s.cycles + 6
          ram := (s.ram.write (0x100 + s.sp.toNat) (hi (s.pc + 2))).write (0x100 + (s.sp - 1).toNat) (lo (s.pc + 2)) }
      ∧ exec .rts s = .next
        { s with
          sp := s.sp + 2, cycles := s.cycles + 6
          pc := word (s.ram.read (0x100 + (s.sp + 2).toNat)) (s.ram.read (0x100 + (s.sp + 1).toNat)) + 1 }
      ∧ exec .rti s = .next
        { s with
          sp := s.sp + 3, flags := Flags.unpack (s.ram.read (0x100 + (s.sp + 1).toNat))
          pc := word (s.ram.read (0x100 + (s.sp + 3).toNat)) (s.ram.read (0x100 + (s.sp + 2).toNat)), cycles := s.cycles + 6 }

/-- R262, R264, R320: whatever runs between (the state `u`), if it leaves the stack pointer and RAM as the entry left them: RTS returns to the instruction
after the JSR; RTI after BRK resumes at the opcode's address plus BRK_PUSH_OFFSET with the flags as they were but for the stored `B`, which BRK set; RTI
after an NMI resumes at the instruction not executed with the very flags it found. -/
def Obligations.ReturnsRestore : Prop :=
  ∀ (s t u : State), s.ram.wf = true → u.sp = t.sp → u.ram = t.ram →
    (∀ target, exec (.jsr target) s = .next t → ∃ r, exec .rts u = .next r ∧ r.pc = s.pc + 3 ∧ r.sp = s.sp)
      ∧ (exec .brk s = .next t → ∃ r, exec .rti u = .next r ∧ r.pc = s.pc + BitVec.ofNat 16 s.params.brkPushOffset ∧ r.sp = s.sp
        ∧ r.flags = { s.flags with b := true })
      ∧ (s.Running → s.nmiPending = true → step s = .next t → ∃ r, exec .rti u = .next r ∧ r.pc = s.pc ∧ r.sp = s.sp ∧ r.flags = s.flags)

/-! ## Addressing modes and operands -/

/-- R143, R147 to R155, R75: the effective address of every memory mode, as a number; the pointer fetches of IZX and IZY wrap inside the zero page; no mode
changes the state (the pointers lie in RAM). The page-cross indicator is the carry out of the low byte of the base plus the index in the modes ABX, ABY
and IZY, and false in the others. -/
def Obligations.AddressingModes : Prop :=
  ∀ (s : State) (b : Byte) (addr : Addr),
    (∀ m : MemMode, (m.effective s).state = s)
      ∧ ((MemMode.zp b).effective s).ea.toNat = b.toNat
      ∧ ((MemMode.zpx b).effective s).ea.toNat = (b.toNat + s.x.toNat) % 256
      ∧ ((MemMode.zpy b).effective s).ea.toNat = (b.toNat + s.y.toNat) % 256
      ∧ ((MemMode.abs addr).effective s).ea = addr
      ∧ ((MemMode.abx addr).effective s).ea.toNat = (addr.toNat + s.x.toNat) % 65536
      ∧ ((MemMode.aby addr).effective s).ea.toNat = (addr.toNat + s.y.toNat) % 65536
      ∧ ((MemMode.izx b).effective s).ea
          = word (s.ram.read ((b.toNat + s.x.toNat + 1) % 256)) (s.ram.read ((b.toNat + s.x.toNat) % 256))
      ∧ ((MemMode.izy b).effective s).ea.toNat
          = (256 * (s.ram.read ((b.toNat + 1) % 256)).toNat + (s.ram.read b.toNat).toNat + s.y.toNat) % 65536
      ∧ ((MemMode.abx addr).effective s).crossed = decide (256 ≤ addr.toNat % 256 + s.x.toNat)
      ∧ ((MemMode.aby addr).effective s).crossed = decide (256 ≤ addr.toNat % 256 + s.y.toNat)
      ∧ ((MemMode.izy b).effective s).crossed = decide (256 ≤ (s.ram.read b.toNat).toNat + s.y.toNat)
      ∧ ∀ m ∈ [MemMode.zp b, .zpx b, .zpy b, .abs addr, .izx b], (m.effective s).crossed = false

/-- R143, R146, R158, R79 (4), (5): the access of an operand in memory, whether it is then read or stored to: the effective address, in the state after the
dummy read of the partial address where the mode is ABX, ABY or IZY and the policy asks for one. The operand of a reading instruction: an immediate is the
byte fetched with the instruction, any other is one read at that address in that state. -/
def Obligations.OperandReads : Prop :=
  (∀ (s : State) (v : Byte), (ReadMode.imm v).operand s = { value := v, crossed := false, state := s })
    ∧ ∀ (s : State) (m : MemMode),
      let e := m.effective s
      let dummy := m.mayDummyRead = true ∧ (s.params.dummyRead = .always ∨ (s.params.dummyRead = .onPageCross ∧ e.crossed = true))
      let t := if dummy then (s.cpuRead (word (hi e.base) (lo e.ea))).2 else s
      m.access s = { ea := e.ea, crossed := e.crossed, state := t }
        ∧ (ReadMode.mem m).operand s = { value := (t.cpuRead e.ea).1, crossed := e.crossed, state := (t.cpuRead e.ea).2 }
        ∧ (m.mayDummyRead = true ↔ (∃ a, m = .abx a) ∨ (∃ a, m = .aby a) ∨ ∃ p, m = .izy p)

/-- R158: where the partial address has no read side effect, the three policies give the same final state, for every instruction. -/
def Obligations.DummyReadPolicyIsInvisible : Prop :=
  ∀ (i : Instr) (s t : State) (policy : DummyReadPolicy), (∀ m, (action i).memMode = some m → quiet (m.effective s).partialAddr = true) →
    exec i s = .next t → exec i (s.withDummyRead policy) = .next (t.withDummyRead policy)

/-! ## Results of the instructions. Each is an equation between the whole next state and the state the rule gives: what it does not name is unchanged. -/

/-- R181, R182, R183: ORA, AND, EOR in their eight modes. -/
def Obligations.LogicalResults : Prop :=
  ∀ (i : Instr) (op : ReadOp) (m : ReadMode) (s : State), action i = .read op m →
    let o := m.operand s
    let next : Byte → Host.Outcome State Fault Refusal := fun r => .next
      { o.state with
        a := r, flags := { s.flags with z := decide (r.toNat = 0), n := decide (128 ≤ r.toNat) }
        pc := s.pc + BitVec.ofNat 16 i.length, cycles := s.cycles + m.cost o.crossed }
    (op = .ora → exec i s = next (s.a ||| o.value)) ∧ (op = .and → exec i s = next (s.a &&& o.value))
      ∧ (op = .eor → exec i s = next (s.a ^^^ o.value))

/-- R184, R189 (b): ADC in its eight modes, whatever `D` holds. `C` is the carry out of the sum as an integer; `V` is set when the operands share a sign
and the result's sign differs from theirs, which is when the true signed sum is outside −128 to 127. -/
def Obligations.AdcResult : Prop :=
  (∀ (i : Instr) (m : ReadMode) (s : State), action i = .read .adc m →
    let o := m.operand s
    let sum := s.a.toNat + o.value.toNat + s.flags.c.toNat
    exec i s = .next
      { o.state with
        a := BitVec.ofNat 8 sum
        flags := { s.flags with
          c := decide (255 < sum), z := decide (sum % 256 = 0), n := decide (128 ≤ sum % 256)
          v := decide (s.a.msb = o.value.msb ∧ (BitVec.ofNat 8 sum).msb ≠ s.a.msb) }
        pc := s.pc + BitVec.ofNat 16 i.length, cycles := s.cycles + m.cost o.crossed })
    ∧ ∀ (a b : Byte) (c : Bool), (a.msb = b.msb ∧ (BitVec.ofNat 8 (a.toNat + b.toNat + c.toNat)).msb ≠ a.msb)
        ↔ (a.toInt + b.toInt + c.toNat < -128 ∨ 127 < a.toInt + b.toInt + c.toNat)

/-- R188, R189 (b): SBC in its eight modes, whatever `D` holds. The result is A − M − (1 − C) modulo 256, `C` says that nothing was borrowed, `V` that the
true signed difference is outside −128 to 127. -/
def Obligations.SbcResult : Prop :=
  ∀ (i : Instr) (m : ReadMode) (s : State), action i = .read .sbc m →
    let o := m.operand s
    let difference : Int := s.a.toNat - o.value.toNat - (1 - s.flags.c.toNat)
    let signed : Int := s.a.toInt - o.value.toInt - (1 - s.flags.c.toNat)
    exec i s = .next
      { o.state with
        a := BitVec.ofInt 8 difference
        flags := { s.flags with
          c := decide (0 ≤ difference), z := decide (difference % 256 = 0), n := decide (128 ≤ difference % 256)
          v := decide (signed < -128 ∨ 127 < signed) }
        pc := s.pc + BitVec.ofNat 16 i.length, cycles := s.cycles + m.cost o.crossed }

/-- R186, R206, R225: LDA, LDX, LDY in all their modes. -/
def Obligations.LoadResults : Prop :=
  ∀ (i : Instr) (op : ReadOp) (m : ReadMode) (s : State), action i = .read op m →
    let o := m.operand s
    let flags := { s.flags with z := decide (o.value.toNat = 0), n := decide (128 ≤ o.value.toNat) }
    let pc := s.pc + BitVec.ofNat 16 i.length
    let cycles := s.cycles + m.cost o.crossed
    (op = .lda → exec i s = .next { o.state with a := o.value, flags := flags, pc := pc, cycles := cycles })
      ∧ (op = .ldx → exec i s = .next { o.state with x := o.value, flags := flags, pc := pc, cycles := cycles })
      ∧ (op = .ldy → exec i s = .next { o.state with y := o.value, flags := flags, pc := pc, cycles := cycles })

/-- R187, R226, R227, R221: CMP, CPY, CPX and BIT in all their modes. The compares are unsigned and `N` is bit 7 of the difference modulo 256; BIT takes `N`
and `V` from the memory operand and `Z` from the AND. -/
def Obligations.CompareAndBitResults : Prop :=
  ∀ (i : Instr) (op : ReadOp) (m : ReadMode) (s : State), action i = .read op m →
    let o := m.operand s
    let next : Flags → Host.Outcome State Fault Refusal := fun f => .next
      { o.state with flags := f, pc := s.pc + BitVec.ofNat 16 i.length, cycles := s.cycles + m.cost o.crossed }
    let compare := fun r : Byte => next
      { s.flags with
        c := decide (o.value.toNat ≤ r.toNat), z := decide (r.toNat = o.value.toNat)
        n := decide (128 ≤ ((r.toNat : Int) - o.value.toNat) % 256) }
    (op = .cmp → exec i s = compare s.a) ∧ (op = .cpx → exec i s = compare s.x) ∧ (op = .cpy → exec i s = compare s.y)
      ∧ (op = .bit → exec i s = next
        { s.flags with
          z := decide (s.a &&& o.value = 0), n := decide (o.value.toNat / 128 % 2 = 1), v := decide (o.value.toNat / 64 % 2 = 1) })

/-- R185, R205, R224: STA, STX, STY in all their modes: one write of the register at the effective address and no read of it. -/
def Obligations.StoreResults : Prop :=
  ∀ (i : Instr) (op : StoreOp) (m : MemMode) (s : State), action i = .store op m →
    let acc := m.access s
    let next : Byte → Host.Outcome State Fault Refusal := fun v => .next
      { acc.state.cpuWrite acc.ea v with pc := s.pc + BitVec.ofNat 16 i.length, cycles := s.cycles + m.storeCost }
    (op = .sta → exec i s = next s.a) ∧ (op = .stx → exec i s = next s.x) ∧ (op = .sty → exec i s = next s.y)

/-- R201 to R204, R207, R208 in mode ACC and in the memory modes (R200, decision D7: one read, then one write of the new value): ASL, ROL, LSR, ROR, DEC,
INC. -/
def Obligations.ModifyResults : Prop :=
  ∀ (i : Instr) (op : ModifyOp) (m : RmwMode) (s : State), action i = .modify op m →
    let flags := fun v : Byte =>
      { s.flags with
        c := op.carryOut v.toNat s.flags.c, z := decide (op.newValue v.toNat s.flags.c = 0), n := decide (128 ≤ op.newValue v.toNat s.flags.c) }
    let pc := s.pc + BitVec.ofNat 16 i.length
    let cycles := s.cycles + m.cost
    (m = .acc → exec i s = .next { s with a := BitVec.ofNat 8 (op.newValue s.a.toNat s.flags.c), flags := flags s.a, pc := pc, cycles := cycles })
      ∧ ∀ mem, m.mem = some mem →
        let acc := mem.access s
        let v := acc.state.cpuRead acc.ea
        exec i s = .next
          { v.2.cpuWrite acc.ea (BitVec.ofNat 8 (op.newValue v.1.toNat s.flags.c)) with flags := flags v.1, pc := pc, cycles := cycles }

/-- R269 to R272, R277, R281 to R285, R189 (f): the register transfers and the counting of the index registers, modulo 256. `Z` and `N` follow the result,
but for TXS, which writes no flag; `C` and `V` are never touched. -/
def Obligations.TransferAndCountResults : Prop :=
  ∀ s : State,
    let next : State → Nat → Host.Outcome State Fault Refusal := fun t r => .next
      { t with flags := { s.flags with z := decide (r = 0), n := decide (128 ≤ r) }, pc := s.pc + 1, cycles := s.cycles + 2 }
    let up := fun r : Byte => (r.toNat + 1) % 256
    let down := fun r : Byte => (r.toNat + 255) % 256
    exec .tay s = next { s with y := s.a } s.a.toNat ∧ exec .tya s = next { s with a := s.y } s.y.toNat
      ∧ exec .txa s = next { s with a := s.x } s.x.toNat ∧ exec .tax s = next { s with x := s.a } s.a.toNat
      ∧ exec .tsx s = next { s with x := s.sp } s.sp.toNat
      ∧ exec .txs s = .next { s with sp := s.x, pc := s.pc + 1, cycles := s.cycles + 2 }
      ∧ exec .inx s = next { s with x := BitVec.ofNat 8 (up s.x) } (up s.x) ∧ exec .iny s = next { s with y := BitVec.ofNat 8 (up s.y) } (up s.y)
      ∧ exec .dex s = next { s with x := BitVec.ofNat 8 (down s.x) } (down s.x)
      ∧ exec .dey s = next { s with y := BitVec.ofNat 8 (down s.y) } (down s.y)

/-- R273 to R276, R278 to R280, R286, R302 (with R300): the flag instructions, NOP and every NOP*: the program counter passes the instruction, the cost
is counted, at most one flag changes. -/
def Obligations.FlagAndNopResults : Prop :=
  (∀ s : State,
    let next : Flags → Host.Outcome State Fault Refusal := fun f => .next { s with flags := f, pc := s.pc + 1, cycles := s.cycles + 2 }
    exec .clc s = next { s.flags with c := false } ∧ exec .sec s = next { s.flags with c := true }
      ∧ exec .cli s = next { s.flags with i := false } ∧ exec .sei s = next { s.flags with i := true }
      ∧ exec .clv s = next { s.flags with v := false }
      ∧ exec .cld s = next { s.flags with d := false } ∧ exec .sed s = next { s.flags with d := true } ∧ exec .nop s = next s.flags)
    ∧ ∀ (i : Instr) (n : Nat) (s : State), action i = .nopStar n →
        (1 ≤ n → i.length = n) ∧ exec i s = .next { s with pc := s.pc + BitVec.ofNat 16 n, cycles := s.cycles + (n + 1) }

/-- R265 to R268, R22: PHP, PHA, PLP, PLA. The slot is in page 1 and the pointer wraps modulo 256. -/
def Obligations.StackResults : Prop :=
  ∀ s : State,
    let top := s.ram.read (0x100 + (s.sp.toNat + 1) % 256)
    exec .php s = .next { s with ram := s.ram.write (0x100 + s.sp.toNat) s.flags.pack, sp := s.sp - 1, pc := s.pc + 1, cycles := s.cycles + 3 }
      ∧ exec .pha s = .next { s with ram := s.ram.write (0x100 + s.sp.toNat) s.a, sp := s.sp - 1, pc := s.pc + 1, cycles := s.cycles + 3 }
      ∧ exec .plp s = .next { s with flags := Flags.unpack top, sp := s.sp + 1, pc := s.pc + 1, cycles := s.cycles + 4 }
      ∧ exec .pla s = .next
        { s with
          a := top, flags := { s.flags with z := decide (top.toNat = 0), n := decide (128 ≤ top.toNat) }
          sp := s.sp + 1, pc := s.pc + 1, cycles := s.cycles + 4 }

/-- R27, R28: the packed status, bit by bit, and its law with Unpack. -/
def Obligations.StatusPacking : Prop :=
  (∀ f : Flags, f.pack.toNat = 128 * f.n.toNat + 64 * f.v.toNat + 32 + 16 * f.b.toNat + 8 * f.d.toNat + 4 * f.i.toNat + 2 * f.z.toNat + f.c.toNat)
    ∧ (∀ b : Byte, (Flags.unpack b).pack = b ||| 0x20) ∧ ∀ f : Flags, Flags.unpack f.pack = f

/-- R240 to R248, R157: the eight branches. -/
def Obligations.BranchResults : Prop :=
  ∀ (i : Instr) (op : BranchOp) (d : Byte) (s : State), action i = .branch op d →
    let next := (s.pc.toNat + 2) % 65536
    let target := ((next + d.toInt) % 65536).toNat
    let taken := op.flag s.flags = op.polarity
    exec i s = .next
      { s with
        pc := BitVec.ofNat 16 (if taken then target else next)
        cycles := s.cycles + (if taken then (if next / 256 = target / 256 then 3 else 4) else 2) }

/-! ## Whole-machine rules -/

/-- R21, R142, R422, R423, R440, R441: every instruction of the machine answers a next state from every state, 2 to 7 cycles later, and the cost is that of the
table of R440, page crossings included; every instruction but the control transfers of R21 leaves `PC` one encoded length further. -/
def Obligations.EveryInstructionCompletes : Prop :=
  ∀ (i : Instr) (s : State), i.wf s.params.undocNops = true →
    let c := fun m : MemMode => (m.effective s).crossed.toNat
    let next := (s.pc.toNat + 2) % 65536
    let target := fun d : Byte => ((next + d.toInt) % 65536).toNat
    ∃ t, exec i s = .next t ∧ s.cycles + 2 ≤ t.cycles ∧ t.cycles ≤ s.cycles + 7
      ∧ ((action i).writesPc = false → t.pc = s.pc + BitVec.ofNat 16 i.length)
      ∧ t.cycles = s.cycles + match action i with
        | .read _ (.imm _) => 2
        | .read _ (.mem (.zp _)) => 3
        | .read _ (.mem (.zpx _)) => 4
        | .read _ (.mem (.zpy _)) => 4
        | .read _ (.mem (.abs _)) => 4
        | .read _ (.mem (.abx addr)) => 4 + c (.abx addr)
        | .read _ (.mem (.aby addr)) => 4 + c (.aby addr)
        | .read _ (.mem (.izx _)) => 6
        | .read _ (.mem (.izy p)) => 5 + c (.izy p)
        | .store _ (.zp _) => 3
        | .store _ (.zpx _) => 4
        | .store _ (.zpy _) => 4
        | .store _ (.abs _) => 4
        | .store _ (.abx _) => 5
        | .store _ (.aby _) => 5
        | .store _ (.izx _) => 6
        | .store _ (.izy _) => 6
        | .modify _ .acc => 2
        | .modify _ (.zp _) => 5
        | .modify _ (.zpx _) => 6
        | .modify _ (.abs _) => 6
        | .modify _ (.abx _) => 7
        | .branch op d => if op.flag s.flags ≠ op.polarity then 2 else if next / 256 = target d / 256 then 3 else 4
        | .implied op => if op = .php ∨ op = .pha then 3 else if op = .plp ∨ op = .pla then 4 else 2
        | .jmp _ => 3
        | .jmpInd _ => 5
        | .jsr _ => 6
        | .brk => 7
        | .rti => 6
        | .rts => 6
        | .nopStar n => n + 1

/-- R20 to R24, R30, R44, R78, R131: what no instruction touches: the NMI latch, the halted mark, the parameters, the cartridge's image and variant, the
picture unit's position, pipeline and callbacks. -/
def Obligations.InstructionFrame : Prop :=
  ∀ (i : Instr) (s t : State), exec i s = .next t →
    t.nmiPending = s.nmiPending ∧ t.halted = s.halted ∧ t.params = s.params ∧ t.events = s.events ∧ t.cart.image = s.cart.image
      ∧ (∀ k, t.cart.regs.hasId k = s.cart.regs.hasId k)
      ∧ t.ppu.position = s.ppu.position ∧ t.ppu.slots = s.ppu.slots ∧ t.ppu.secondaryOam = s.ppu.secondaryOam
      ∧ t.ppu.sprite0Hit = s.ppu.sprite0Hit ∧ t.ppu.spriteOverflow = s.ppu.spriteOverflow
      ∧ t.ppu.sprCount = s.ppu.sprCount ∧ t.ppu.secCount = s.ppu.secCount
      ∧ t.ppu.spr0InSlot0 = s.ppu.spr0InSlot0 ∧ t.ppu.secHasSpr0 = s.ppu.secHasSpr0

/-- R20, R24, R77: what an instruction that neither stores nor pushes leaves alone: every byte of RAM, of the cartridge, of OAM, palette and nametables,
and so every byte the processor can read without side effect; of the devices only what a read can change. -/
def Obligations.NonStoringFrame : Prop :=
  ∀ (i : Instr) (s t : State), (action i).stores = false → exec i s = .next t →
    t.ram = s.ram ∧ t.cart = s.cart ∧ t.ppu = { s.ppu with vblank := t.ppu.vblank, w := t.ppu.w, vramAddr := t.ppu.vramAddr }
      ∧ ∀ a, quiet a = true → t.peek a = s.peek a

/-- R185, R205, R224, R200, R61, R62, R77, R87, R366, R371, R131: what an instruction that stores leaves alone, the address stored to being the one its meaning
computes. Below 0x8000 every byte the processor can read without side effect, but for the byte stored to (in RAM, at its four mirrors), reads as before; a
store at 0x8000 or above reaches the mapper's registers, which change no byte of memory. OAM changes only by a store to 0x4014, or, at the cursor, to the
OAM data register; palette, nametables and graphics memory only by one to the data register, which changes the byte at the address the register then
advances from. -/
def Obligations.StoringFrame : Prop :=
  ∀ (i : Instr) (m : MemMode) (s t : State), s.ram.wf = true → s.cart.prgRam.wf = true → s.ppu.oam.wf = true → s.ppu.palette.wf = true →
    s.ppu.nametable.wf = true → s.cart.chr.wf = true → (action i).storeMode = some m → exec i s = .next t →
    let ea := (m.access s).ea
    let toRegister := fun r : Nat => 0x2000 ≤ ea.toNat ∧ ea.toNat < 0x4000 ∧ ea.toNat % 8 = r
    let written := t.ppu.vramAddr - (if s.ppu.ctrl.getLsbD 2 then 32 else 1)
    t.sp = s.sp
      ∧ (∀ k, regionOf ea ≠ .ram k → t.ram.read k = s.ram.read k)
      ∧ (ea.toNat < 0x8000 → ∀ b, quiet b = true → (regionOf b ≠ regionOf ea ∨ (regionOf ea = .cartridge ∧ b ≠ ea)) → t.peek b = s.peek b)
      ∧ (0x8000 ≤ ea.toNat → t.ram = s.ram ∧ t.cart.image = s.cart.image ∧ t.cart.prgRam = s.cart.prgRam ∧ t.cart.chr = s.cart.chr)
      ∧ (ea.toNat ≠ 0x4014 → ¬toRegister 4 → t.ppu.oam = s.ppu.oam)
      ∧ (toRegister 4 → ∀ k, k ≠ s.ppu.oamAddr.toNat → t.ppu.oam.read k = s.ppu.oam.read k)
      ∧ (¬toRegister 7 → t.ppu.palette = s.ppu.palette ∧ t.ppu.nametable = s.ppu.nametable ∧ t.cart.chr = s.cart.chr)
      ∧ (toRegister 7 → ∀ b, samePpuByte s.cart b written = false → t.ppuRead b = s.ppuRead b)

/-- R24, R25, R26, R322: no step but one that packs the status (PHP, BRK, an NMI entry) lets `D`, `I` or `B` influence anything but themselves: from two
states that differ only there, the next states differ at most there. -/
def Obligations.DecimalInterruptBreakAreInert : Prop :=
  ∀ (s t : State) (d i b : Bool), s.nmiPending = false → s.peek s.pc ≠ 0x00 → s.peek s.pc ≠ 0x08 → step s = .next t →
    ∃ d' i' b', step (s.withDIB d i b) = .next (t.withDIB d' i' b')

/-- R410, R44: a tick of the picture unit changes nothing outside the picture unit but the NMI latch, which it only sets, and the recorded callbacks (log 8);
it writes neither OAM, nor palette, nor nametables, nor the cartridge, nor a register. Secondary OAM and the slots, which it does write, are the subject of
SpriteEvaluation and SpritePixels. -/
def Obligations.PictureUnitIsolation : Prop :=
  ∀ (n : Nat) (s : State),
    let t := State.ticks n s
    t = { s with ppu := t.ppu, nmiPending := t.nmiPending, events := t.events }
      ∧ (s.nmiPending = true → t.nmiPending = true)
      ∧ t.ppu.oam = s.ppu.oam ∧ t.ppu.palette = s.ppu.palette ∧ t.ppu.nametable = s.ppu.nametable
      ∧ t.ppu.ctrl = s.ppu.ctrl ∧ t.ppu.mask = s.ppu.mask ∧ t.ppu.lastWrite = s.ppu.lastWrite ∧ t.ppu.oamAddr = s.ppu.oamAddr ∧ t.ppu.w = s.ppu.w
      ∧ t.ppu.scrollX = s.ppu.scrollX ∧ t.ppu.scrollY = s.ppu.scrollY ∧ t.ppu.vramAddr = s.ppu.vramAddr

/-- The invariant of Safety.lean: every array in canonical form and within its size, the grid of R35, at most eight sprites (R377), empty slots above
`spr_count` (R388), a mapper in its own variant with its registers in bounds (R41), cursors at most 8 (R42). Every step keeps it. -/
def Obligations.StepKeepsInvariant : Prop :=
  ∀ s t : State, s.Inv → step s = .next t → t.Inv

/-- The invariant holds after reset, and after power-on with any image the loader accepts, for admissible parameters and RAM contents. -/
def Obligations.InvariantHoldsAtReset : Prop :=
  State.reset.Inv
    ∧ ∀ (bytes : List Byte) (cart : Cart) (params : Params) (ram : Memory), loadImage bytes = .ok cart → params.wf = true → ram.fits 2048 = true →
        (powerOn cart params ram).Inv

/-- R426: after every round the number of ticks the picture unit has made since power-on is three times the cycle count; from any state of which that is
true. -/
def Obligations.ThreeDotsPerCycle : Prop :=
  State.reset.Synced ∧ ∀ s t : State, s.Synced → step s = .next t → t.Synced

/-- R352 (with decision D37): the frame length. From the start of a pass, 89342 ticks in an even frame and 89341 in an odd one lead to the start of the
next, and no fewer do; the pass in progress at reset is 89001 long. -/
def Obligations.FrameLength : Prop :=
  (∀ (s : State) (f : Nat), s.ppu.position = { scanline := -1, dot := 0, frame := f } →
    let n := if f % 2 = 0 then 89342 else 89341
    (State.ticks n s).ppu.position = { scanline := -1, dot := 0, frame := f + 1 }
      ∧ ∀ k, 0 < k → k < n → (State.ticks k s).ppu.position.frame = f ∧ (State.ticks k s).ppu.position ≠ { scanline := -1, dot := 0, frame := f })
    ∧ ∀ (s : State), s.ppu.position = { scanline := 0, dot := 0, frame := 0 } →
        (State.ticks 89001 s).ppu.position = { scanline := -1, dot := 0, frame := 1 }

/-- R403 to R406, R351 (decisions D25, D42): what one tick does to the three flags of the status register, to the NMI latch and to the callback record (log 8).
The sprite flags' other writers are sprite evaluation (R377) and the sprite-0 rule (R392, decision D31). -/
def Obligations.VerticalBlankAndFlags : Prop :=
  ∀ s : State,
    let t := s.tick
    (s.ppu.scanline = 241 ∧ s.ppu.dot = 1 → t.ppu.vblank = true ∧ t.nmiPending = (s.nmiPending || s.ppu.ctrl.getLsbD 7)
        ∧ t.events = s.events ++ [.frameComplete])
      ∧ (¬(s.ppu.scanline = 241 ∧ s.ppu.dot = 1) → t.nmiPending = s.nmiPending ∧ (t.ppu.vblank = true → s.ppu.vblank = true)
        ∧ t.events.count .frameComplete = s.events.count .frameComplete)
      ∧ (s.ppu.scanline = -1 ∧ s.ppu.dot = 1 → t.ppu.vblank = false ∧ t.ppu.sprite0Hit = false ∧ t.ppu.spriteOverflow = true)
      ∧ (¬(s.ppu.scanline = -1 ∧ s.ppu.dot = 1) → (s.ppu.vblank = true → t.ppu.vblank = true) ∧ (s.ppu.sprite0Hit = true → t.ppu.sprite0Hit = true))

/-- R406, R363: nothing ever clears `sprite_overflow`. -/
def Obligations.SpriteOverflowIsNeverCleared : Prop :=
  ∀ s t : State, s.ppu.spriteOverflow = true → step s = .next t → t.ppu.spriteOverflow = true

/-- R40, R43, R102, R106, R128 (decisions D19, D34): the configuration never changes: the cartridge's image (its ROM, sizes, identifier and header mode), its
variant, graphics ROM, a four-screen mode and the parameters; and the dual variant's interrupt counter is never clocked. -/
def Obligations.ConfigurationIsImmutable : Prop :=
  ∀ s t : State, step s = .next t →
    t.cart.image = s.cart.image ∧ t.params = s.params ∧ (∀ k, t.cart.regs.hasId k = s.cart.regs.hasId k)
      ∧ (s.cart.image.chrIsRam = false → t.cart.chr = s.cart.chr)
      ∧ (s.cart.image.mirroring = .fourScreen → t.cart.mirroring = s.cart.mirroring)
      ∧ (∀ r, s.cart.regs = .dual r → ∃ r', t.cart.regs = .dual r' ∧ r'.irqCounter = r.irqCounter)

/-- R422 (decision D13): the contract of `step(minCycles)` of the processor. It returns the cycles consumed; it ends with the budget consumed or the machine
halted; and the unit it ends with, a `Unit()` of R423, began with less than the budget consumed, so the overshoot is less than that unit's cost. -/
def Obligations.ProcessorStepContract : Prop :=
  ∀ (n : Int) (s : State), nopTableWf s.params.undocNops = true →
    let r := procStep n s
    (r.1 : Int) + s.cycles = r.2.cycles
      ∧ (n ≤ r.1 ∨ r.2.halted ≠ none)
      ∧ (0 < n → s.halted = none → ∃ k : Nat, (k : Int) < n ∧ (procStep k s).1 = k ∧ (procStep k s).2.halted = none
          ∧ procUnit (procStep k s).2 = .next r.2 ∧ r.1 - k ≤ 7)
      ∧ (n ≤ 0 → r = (0, s))

/-! ## The buses and the devices -/

/-- R62: the RAM mirror. A write through an address below 0x2000 reaches the RAM at its index modulo 0x0800 and nothing else, and is seen at exactly the
addresses below 0x2000 that agree with it modulo 0x0800; a read there has no side effect. -/
def Obligations.RamMirror : Prop :=
  ∀ (s : State) (a b : Addr) (v : Byte), s.ram.wf = true → a.toNat < 0x2000 → b.toNat < 0x2000 →
    s.cpuWrite a v = { s with ram := s.ram.write (a.toNat % 0x800) v }
      ∧ (s.cpuWrite a v).cpuRead b = (if a.toNat % 0x800 = b.toNat % 0x800 then v else s.peek b, s.cpuWrite a v)

/-- R63, R357, R362, R365, R370 (decisions D12, D22, D27): reads of the picture unit's registers, at every mirror of the window. -/
def Obligations.RegisterReads : Prop :=
  ∀ (s : State) (a : Addr), 0x2000 ≤ a.toNat → a.toNat < 0x4000 →
    (a.toNat % 8 = 2 → (s.cpuRead a).1.toNat
          = 128 * s.ppu.vblank.toNat + 64 * s.ppu.sprite0Hit.toNat + 32 * s.ppu.spriteOverflow.toNat + s.ppu.lastWrite.toNat % 32
        ∧ (s.cpuRead a).2 = { s with ppu := { s.ppu with vblank := false, w := false } })
      ∧ (a.toNat % 8 = 4 → s.cpuRead a = (s.ppu.oam.read s.ppu.oamAddr.toNat, s))
      ∧ (a.toNat % 8 = 7 → s.cpuRead a
          = (s.ppuRead s.ppu.vramAddr, { s with ppu := { s.ppu with vramAddr := s.ppu.vramAddr + (if s.ppu.ctrl.getLsbD 2 then 32 else 1) } }))
      ∧ (a.toNat % 8 ∈ [0, 1, 3, 5, 6] → s.cpuRead a = (0x00, s))

/-- R357 to R369 (decisions D22, D26, D28, D32): writes of the picture unit's registers but the data register. -/
def Obligations.RegisterWrites : Prop :=
  ∀ (s : State) (a : Addr) (v : Byte), 0x2000 ≤ a.toNat → a.toNat < 0x4000 →
    let p := { s.ppu with lastWrite := v }
    (a.toNat % 8 = 0 → s.cpuWrite a v = { s with ppu := if s.cycles < s.params.warmupCycles then p else { p with ctrl := v } })
      ∧ (a.toNat % 8 = 1 → s.cpuWrite a v = { s with ppu := { p with mask := v } })
      ∧ (a.toNat % 8 = 2 → s.cpuWrite a v = { s with ppu := p })
      ∧ (a.toNat % 8 = 3 → s.cpuWrite a v = { s with ppu := { p with oamAddr := v } })
      ∧ (a.toNat % 8 = 4 → s.cpuWrite a v = { s with ppu :=
          if (s.ppu.mask.getLsbD 3 ∨ s.ppu.mask.getLsbD 4) ∧ -1 ≤ s.ppu.scanline ∧ s.ppu.scanline ≤ 239 then p
          else { p with oam := s.ppu.oam.write s.ppu.oamAddr.toNat v, oamAddr := s.ppu.oamAddr + 1 } })
      ∧ (a.toNat % 8 = 5 → s.cpuWrite a v = { s with ppu :=
          if s.ppu.w = false then { p with scrollX := v, w := true } else { p with scrollY := v, w := false } })
      ∧ (a.toNat % 8 = 6 → s.cpuWrite a v = { s with ppu :=
          if s.ppu.w = false then { p with vramAddr := word v (lo s.ppu.vramAddr), w := true }
          else { p with vramAddr := word (hi s.ppu.vramAddr) v, w := false } })

/-- R371, R84, R85, R86, R104, R107: a write to the data register, and what reads of the picture unit's bus see after it: the byte, at every alias of the
address, and elsewhere what was there; the address advances even where the write is ignored (graphics ROM). -/
def Obligations.DataRegisterWrite : Prop :=
  ∀ (s : State) (a : Addr) (v : Byte), 0x2000 ≤ a.toNat → a.toNat < 0x4000 → a.toNat % 8 = 7 →
    s.ppu.palette.wf = true → s.ppu.nametable.wf = true → s.cart.chr.wf = true →
    let t := s.cpuWrite a v
    t.ppu.vramAddr = s.ppu.vramAddr + (if s.ppu.ctrl.getLsbD 2 then 32 else 1) ∧ t.ppu.lastWrite = v
      ∧ ∀ b : Addr, t.ppuRead b =
          if samePpuByte s.cart b s.ppu.vramAddr = true ∧ (s.cart.image.chrIsRam = true ∨ 0x2000 ≤ s.ppu.vramAddr.toNat % 0x4000) then v
          else s.ppuRead b

/-- R84, R85, R86, R104, R105: the picture unit's space: 14 bits; 0x0000 to 0x1FFF is the mapper's; 0x3000 to 0x3EFF is 0x2000 to 0x2EFF; the palette has 32
entries of which four are aliases; each logical nametable is one bank of 0x400 bytes by the mirroring mode; and a read gives the byte there. -/
def Obligations.PpuSpace : Prop :=
  ∀ (c : Cart) (a : Addr),
    ppuCell c a = ppuCell c (BitVec.ofNat 16 (a.toNat % 0x4000))
      ∧ (a.toNat < 0x2000 → ppuCell c a = .pattern a.toNat)
      ∧ (0x3000 ≤ a.toNat → a.toNat < 0x3F00 → ppuCell c a = ppuCell c (a - 0x1000))
      ∧ (0x3F00 ≤ a.toNat → a.toNat < 0x4000 →
        ppuCell c a = .palette (if a.toNat % 32 ∈ [16, 20, 24, 28] then a.toNat % 32 - 16 else a.toNat % 32))
      ∧ (0x2000 ≤ a.toNat → a.toNat < 0x3000 → ppuCell c a = .nametable (0x400 * (nametableBanks c.mirroring).getD (a.toNat / 0x400 % 4) 0 + a.toNat % 0x400))
      ∧ ∀ s : State, s.cart = c →
        (∀ k, ppuCell c a = .pattern k → s.ppuRead a = c.ppuRead k) ∧ (∀ k, ppuCell c a = .nametable k → s.ppuRead a = s.ppu.nametable.read k)
          ∧ ∀ k, ppuCell c a = .palette k → s.ppuRead a = s.ppu.palette.read k

/-- R87, R65 (decision D33): the OAM copy: 256 ordinary reads in ascending order, each stored at the cursor plus its number modulo 256, the cursor unmoved; so
from a page whose reads have no side effect every byte of OAM is the source byte, and nothing else changes. -/
def Obligations.OamCopy : Prop :=
  ∀ (s : State) (v : Byte),
    let copyOne := fun (t : State) (k : Nat) =>
      let r := t.cpuRead (word v (BitVec.ofNat 8 k))
      { r.2 with ppu := { r.2.ppu with oam := r.2.ppu.oam.write (r.2.ppu.oamAddr + BitVec.ofNat 8 k).toNat r.1 } }
    s.cpuWrite 0x4014 v = (List.range 256).foldl copyOne s
      ∧ (s.ppu.oam.wf = true → (v.toNat < 0x20 ∨ 0x41 ≤ v.toNat) →
        (∀ k : Byte, (s.cpuWrite 0x4014 v).ppu.oam.read (s.ppu.oamAddr + k).toNat = s.peek (word v k))
          ∧ s.cpuWrite 0x4014 v = { s with ppu := { s.ppu with oam := (s.cpuWrite 0x4014 v).ppu.oam } })

/-- R60, R61, R66, R68, R77, R88: reads of every address that is no picture-unit register and no input device have no side effect; those of the DMA
register, the audio device, the reserved window and undeclared cartridge addresses give 0x00 (decisions D12, D39); writes to the audio device and the
reserved window change nothing. -/
def Obligations.SilentWindows : Prop :=
  ∀ (s : State) (a : Addr) (v : Byte),
    ((a.toNat < 0x2000 ∨ 0x4000 ≤ a.toNat) → a.toNat ≠ 0x4016 → a.toNat ≠ 0x4017 → (s.cpuRead a).2 = s)
      ∧ (0x4000 ≤ a.toNat → a.toNat < 0x4020 → a.toNat ≠ 0x4016 → a.toNat ≠ 0x4017 → s.cpuRead a = (0x00, s))
      ∧ (0x4000 ≤ a.toNat → a.toNat < 0x4020 → a.toNat ≠ 0x4014 → a.toNat ≠ 0x4016 → s.cpuWrite a v = s)
      ∧ (0x4020 ≤ a.toNat → a.toNat < 0x6000 → s.cpuRead a = (0x00, s) ∧ s.cpuWrite a v = s)

/-- R67 (decision D39): the input protocol. A strobe write with bit 0 set, then one with it clear, puts the cursor of both devices at 0; the eight reads of a
device that follow give the eight buttons of the host's samples in order, one sample a read, and leave its cursor at 8. While the strobe is held every read
gives the first button. -/
def Obligations.InputProtocol : Prop :=
  ∀ (s : State) (v w : Byte) (samples rest : List Byte), v.getLsbD 0 = true → w.getLsbD 0 = false → samples.length = 8 →
    let held := s.cpuWrite 0x4016 v
    let t := held.cpuWrite 0x4016 w
    let buttons := (List.range 8).map fun k => BitVec.ofNat 8 ((samples.getD k 0).getLsbD k).toNat
    (s.input1.samples = samples ++ rest →
        (readTimes 8 0x4016 t).1 = buttons
          ∧ (readTimes 8 0x4016 t).2 = { t with input1 := { strobe := false, cursor := 8, samples := rest }, drawn := s.drawn + 8 }
          ∧ (readTimes 8 0x4016 held).1 = samples.map fun b => BitVec.ofNat 8 (b.getLsbD 0).toNat)
      ∧ (s.input2.samples = samples ++ rest →
        (readTimes 8 0x4017 t).1 = buttons
          ∧ (readTimes 8 0x4017 t).2 = { t with input2 := { strobe := false, cursor := 8, samples := rest }, drawn := s.drawn + 8 }
          ∧ (readTimes 8 0x4017 held).1 = samples.map fun b => BitVec.ofNat 8 (b.getLsbD 0).toNat)
      ∧ t = { s with input1 := { s.input1 with strobe := false, cursor := 0 }, input2 := { s.input2 with strobe := false, cursor := 0 } }

/-! ## Cartridge and mappers -/

/-- R100, R101, R102 (decision D21): the loader: when it refuses an image, and what cartridge it makes of one it accepts. -/
def Obligations.ImageLoading : Prop :=
  ∀ bytes : List Byte,
    let h := fun k => (bytes.getD k 0).toNat
    let start := 16 + (if h 6 / 4 % 2 = 1 then 512 else 0)
    let id := h 7 / 16 * 16 + h 6 / 16
    ((∃ c, loadImage bytes = .ok c) ↔
      (bytes.take 4 = [0x4E, 0x45, 0x53, 0x1A] ∧ start + 16384 * h 4 + 8192 * h 5 ≤ bytes.length ∧ 0 < h 4 ∧ id ∈ [0, 1, 3, 4]))
      ∧ ∀ c, loadImage bytes = .ok c →
        c.image.prgSize = 16384 * h 4 ∧ c.image.chrSize = (if h 5 = 0 then 8192 else 8192 * h 5) ∧ (c.image.chrIsRam = decide (h 5 = 0))
          ∧ c.image.mapperId.toNat = id ∧ c.regs.hasId c.image.mapperId = true
          ∧ c.mirroring = (if h 6 / 8 % 2 = 1 then .fourScreen else if h 6 % 2 = 1 then .vertical else .horizontal)
          ∧ (∀ k, k < 16384 * h 4 → c.image.prg.read k = bytes.getD (start + k) 0)
          ∧ (∀ k, k < 8192 * h 5 → c.chr.read k = bytes.getD (start + 16384 * h 4 + k) 0)
          ∧ (h 5 = 0 → c.chr = []) ∧ c.prgRam = []

/-- R108, R109, R110, R112, R113, R130: the fixed-bank and the bank-select-by-write variants: program ROM at 0x8000 to 0xFFFF directly, 16 KB images seen
twice; the fixed-bank variant ignores every write and sees its graphics directly, the other takes the byte as the 8 KB graphics bank it shows. -/
def Obligations.FixedProgramRom : Prop :=
  ∀ (s : State) (a : Addr) (b : Nat) (v : Byte), 0x8000 ≤ a.toNat → b < 0x2000 → (s.cart.regs = .fixedBank ∨ ∃ k, s.cart.regs = .bankSelect k) →
    s.cpuRead a = (s.cart.image.prg.read ((a.toNat - 0x8000) % s.cart.image.prgSize), s)
      ∧ (s.cart.image.prgBanks = 1 → 0xC000 ≤ a.toNat → s.cpuRead a = s.cpuRead (a - 0x4000))
      ∧ (s.cart.regs = .fixedBank → s.cpuWrite a v = s ∧ s.cart.ppuRead b = s.cart.chr.read (b % s.cart.image.chrSize))
      ∧ ∀ k, s.cart.regs = .bankSelect k → s.cpuWrite a v = { s with cart := { s.cart with regs := .bankSelect v } }
          ∧ s.cart.ppuRead b = bankByte s.cart.chr s.cart.image.chrSize 8192 k.toNat b

/-- R110, R111, R88 (decision D36): the window 0x6000 to 0x7FFF. In the serial and the dual variant it is cartridge RAM, and a write there changes nothing
else; in the other two a read gives 0x00 and a write is ignored. -/
def Obligations.CartridgeRam : Prop :=
  ∀ (s : State) (a b : Addr) (v : Byte), 0x6000 ≤ a.toNat → a.toNat < 0x8000 → 0x6000 ≤ b.toNat → b.toNat < 0x8000 → s.cart.prgRam.wf = true →
    let hasRam := (∃ r, s.cart.regs = .serial r) ∨ ∃ r, s.cart.regs = .dual r
    (hasRam → (s.cpuWrite a v).cpuRead b = (if a = b then v else s.peek b, s.cpuWrite a v)
        ∧ s.cpuWrite a v = { s with cart := { s.cart with prgRam := (s.cpuWrite a v).cart.prgRam } })
      ∧ (¬hasRam → s.cpuWrite a v = s ∧ s.cpuRead a = (0x00, s))

/-- R114, R115, R119, R106 (decisions D34, D35): the serial variant. A write with bit 7 set empties the shift register; five writes with bit 7 clear from an empty one commit
the five low bits, first write lowest, to the register that bits 14 and 13 of the fifth address name; a commit to `control` sets the mirroring mode, unless
the header says four-screen. -/
def Obligations.SerialLoad : Prop :=
  ∀ (c : Cart) (r : SerialRegs) (a0 a1 a2 a3 a4 : Addr) (v0 v1 v2 v3 v4 : Byte), c.regs = .serial r →
    (∀ a ∈ [a0, a1, a2, a3, a4], 0x8000 ≤ a.toNat) →
    (v0.getLsbD 7 = true → c.cpuWrite a0 v0 = { c with regs := .serial { r with shift := 0, shiftCount := 0 } })
      ∧ ((∀ v ∈ [v0, v1, v2, v3, v4], v.getLsbD 7 = false) → r.shiftCount = 0 →
        let d := ((((c.cpuWrite a0 v0).cpuWrite a1 v1).cpuWrite a2 v2).cpuWrite a3 v3).cpuWrite a4 v4
        let value : BitVec 5 := BitVec.ofNat 5 (bit v0 0 + 2 * bit v1 0 + 4 * bit v2 0 + 8 * bit v3 0 + 16 * bit v4 0)
        let sel := a4.toNat / 0x2000 % 4
        d.regs = .serial { r with
            shift := 0, shiftCount := 0
            control := if sel = 0 then value else r.control, chrBank0 := if sel = 1 then value else r.chrBank0
            chrBank1 := if sel = 2 then value else r.chrBank1, prgBank := if sel = 3 then value else r.prgBank }
          ∧ d.mirroring = (if sel = 0 ∧ c.image.mirroring ≠ .fourScreen then [Mirroring.singleA, .singleB, .vertical, .horizontal].getD (value.toNat % 4) .singleA else c.mirroring)
          ∧ d.image = c.image ∧ d.chr = c.chr ∧ d.prgRam = c.prgRam)

/-- R116, R117, R118, R122, R123: the bank mapping of the two switching variants, program and graphics. -/
def Obligations.BankMapping : Prop :=
  ∀ (c : Cart) (a : Addr) (b : Nat), 0x8000 ≤ a.toNat → b < 0x2000 →
    let len := c.image.prgSize
    (∀ r : SerialRegs, c.regs = .serial r →
      let p := r.prgBank.toNat % 16
      let mode := r.control.toNat / 4 % 4
      (mode < 2 → c.cpuRead a = bankByte c.image.prg len 32768 (p / 2) a.toNat)
        ∧ (mode = 2 → c.cpuRead a = bankByte c.image.prg len 16384 (if a.toNat < 0xC000 then 0 else p) a.toNat)
        ∧ (mode = 3 → c.cpuRead a = bankByte c.image.prg len 16384 (if a.toNat < 0xC000 then p else len / 16384 - 1) a.toNat)
        ∧ (r.control.toNat / 16 = 0 → c.ppuRead b = bankByte c.chr c.image.chrSize 8192 (r.chrBank0.toNat / 2) b)
        ∧ (r.control.toNat / 16 = 1 → c.ppuRead b
            = bankByte c.chr c.image.chrSize 4096 (if b < 0x1000 then r.chrBank0.toNat else r.chrBank1.toNat) b))
      ∧ ∀ r : DualRegs, c.regs = .dual r →
        let window := a.toNat / 0x2000 % 4
        let swapped := r.bankSelect.getLsbD 6 = true
        let index := if window = 3 then len / 8192 - 1 else if window = 1 then r.bankReg[7].toNat
          else if (window = 0 ∧ ¬swapped) ∨ (window = 2 ∧ swapped) then r.bankReg[6].toNat else len / 8192 - 2
        let b' := if r.bankSelect.getLsbD 7 then (b + 0x1000) % 0x2000 else b
        let chrIndex := if b' < 0x0800 then r.bankReg[0].toNat / 2 * 2 + b' / 0x400 % 2
          else if b' < 0x1000 then r.bankReg[1].toNat / 2 * 2 + b' / 0x400 % 2
          else if b' < 0x1400 then r.bankReg[2].toNat else if b' < 0x1800 then r.bankReg[3].toNat
          else if b' < 0x1C00 then r.bankReg[4].toNat else r.bankReg[5].toNat
        c.cpuRead a = bankByte c.image.prg len 8192 index a.toNat ∧ c.ppuRead b = bankByte c.chr c.image.chrSize 1024 chrIndex b

/-- R120, R121, R124 to R127, R106 (decisions D19, D34, D36): the dual variant's registers. -/
def Obligations.DualRegisters : Prop :=
  ∀ (c : Cart) (r : DualRegs) (a : Addr) (v : Byte), c.regs = .dual r → 0x8000 ≤ a.toNat →
    let slot := r.bankSelect.toNat % 8
    let reg := a.toNat / 0x2000 % 4
    let odd := a.toNat % 2
    let value : Byte := if slot < 2 then v &&& 0xFE else if slot < 6 then v else v &&& 0x3F
    (reg = 0 → odd = 0 → c.cpuWrite a v = { c with regs := .dual { r with bankSelect := v } })
      ∧ (reg = 0 → odd = 1 → ∃ banks, c.cpuWrite a v = { c with regs := .dual { r with bankReg := banks } }
          ∧ ∀ k : Fin 8, banks[k] = if k.val = slot then value else r.bankReg[k])
      ∧ (reg = 1 → odd = 0 → c.cpuWrite a v = { c with
            regs := .dual { r with mirrorReg := v.getLsbD 0 }
            mirroring := if c.image.mirroring = .fourScreen then c.mirroring else if v.getLsbD 0 then .horizontal else .vertical })
      ∧ (reg = 1 → odd = 1 → c.cpuWrite a v = c)
      ∧ (reg = 2 → c.cpuWrite a v = { c with
            regs := .dual { r with irqLatch := if odd = 0 then v else r.irqLatch, irqReload := if odd = 1 then true else r.irqReload } })
      ∧ (reg = 3 → c.cpuWrite a v = { c with regs := .dual { r with irqEnable := decide (odd = 1) } })

/-! ## The picture unit's pipelines -/

/-- R377, R375 (decision D29): what sprite evaluation leaves in secondary OAM after the clear of R376: the first eight sprites, in OAM order, whose `Y` is in
range of the line; the overflow flag is only ever set, and it is set when the ninth in-range sprite is the first one examined after the eighth selected. -/
def Obligations.SpriteEvaluation : Prop :=
  ∀ p : Ppu,
    let q := p.clearSecondary.evaluateSprites
    let chosen := ((List.range 64).filter fun n => spriteInRange p.scanline p.ctrl (p.oam.read (4 * n))).take 8
    q.secCount = chosen.length ∧ q.secHasSpr0 = decide (0 ∈ chosen)
      ∧ (∀ k, k < chosen.length → ∀ j, j < 4 → q.secondaryOam.read (4 * k + j) = p.oam.read (4 * chosen.getD k 0 + j))
      ∧ (∀ k, 4 * chosen.length ≤ k → k < 32 → q.secondaryOam.read k = 0xFF)
      ∧ (p.spriteOverflow = true → q.spriteOverflow = true)
      ∧ (chosen.length < 8 → q.spriteOverflow = p.spriteOverflow)
      ∧ (chosen.length = 8 → chosen.getD 7 0 < 63 → spriteInRange p.scanline p.ctrl (p.oam.read (4 * (chosen.getD 7 0 + 1))) = true →
          q.spriteOverflow = true)

/-- R380, R388 (decision D29). The slot load at dot 257 of a pipeline line: from each sprite of secondary OAM whose row lies in the sprite, its left edge, its
attributes and the two bitplane bytes of the row, flipped as its attributes say; the slots above the count empty. And a slot with left edge `x`, after `k`
pixels of a line: it shows the colour of bit `7 − (k − x)` of its two planes where `0 ≤ k − x ≤ 7`, and nothing elsewhere; the sprite pixel is that of the
lowest-numbered slot that shows something. -/
def Obligations.SpritePixels : Prop :=
  (∀ s : State, s.params.wf = true → -1 ≤ s.ppu.scanline → s.ppu.scanline ≤ 239 → s.ppu.dot = 257 →
    let t := s.tick
    t.ppu.sprCount = s.ppu.secCount ∧ t.ppu.spr0InSlot0 = s.ppu.secHasSpr0
      ∧ ∀ j : Fin 8,
        (s.ppu.secCount ≤ j.val → t.ppu.slots[j] = { lo := 0, hi := 0, x := 0, attr := 0 })
          ∧ (j.val < s.ppu.secCount →
            let y := (s.ppu.secondaryOam.read (4 * j.val)).toNat
            let tile := (s.ppu.secondaryOam.read (4 * j.val + 1)).toNat
            let attr := s.ppu.secondaryOam.read (4 * j.val + 2)
            let h := if s.ppu.ctrl.getLsbD 5 then 16 else 8
            t.ppu.slots[j].x = s.ppu.secondaryOam.read (4 * j.val + 3) ∧ t.ppu.slots[j].attr = attr
              ∧ ∀ r : Nat, s.ppu.scanline = y + r → r < h →
                let row := if attr.getLsbD 7 then h - 1 - r else r
                let addr := if h = 8 then 0x1000 * bit s.ppu.ctrl 3 + 16 * tile + row
                  else 0x1000 * (tile % 2) + 16 * (tile / 2 * 2) + 16 * (row / 8) + row % 8
                ∀ n, n < 8 →
                  let from' := if attr.getLsbD 6 then 7 - n else n
                  bit t.ppu.slots[j].lo n = bit (s.ppuRead (BitVec.ofNat 16 addr)) from'
                    ∧ bit t.ppu.slots[j].hi n = bit (s.ppuRead (BitVec.ofNat 16 (addr + 8))) from'))
    ∧ ∀ (p : Ppu) (k : Nat),
      let q := Ppu.advanceSlots^[k] p
      (∀ j : Fin 8, q.slots[j].colour
          = if p.slots[j].x.toNat ≤ k ∧ k ≤ p.slots[j].x.toNat + 7
            then 2 * bit p.slots[j].hi (7 - (k - p.slots[j].x.toNat)) + bit p.slots[j].lo (7 - (k - p.slots[j].x.toNat)) else 0)
        ∧ ((∀ j : Fin 8, q.slots[j].colour = 0) → q.spritePixel.colour = 0)
        ∧ ∀ j : Fin 8, q.slots[j].colour ≠ 0 → (∀ l : Fin 8, l < j → q.slots[l].colour = 0) →
            q.spritePixel = { colour := q.slots[j].colour, attr := q.slots[j].attr, slot := some j }

/-- R385, R386, R390, R392, R399, R400, R361 (decisions D23, D30, D31): the pixel of one position: the background pixel from the nametable, the attribute table
and the pattern planes at the scrolled position; the gates of the mask register; the priority; the palette entry; and when the sprite-0 rule sets its flag. -/
def Obligations.PixelPriority : Prop :=
  ∀ s : State, 0 ≤ s.ppu.scanline → s.ppu.scanline ≤ 239 → 1 ≤ s.ppu.dot → s.ppu.dot ≤ 256 →
    let x := s.ppu.dot - 1
    let y := s.ppu.scanline.toNat
    let X := (x + s.ppu.scrollX.toNat + 256 * (s.ppu.ctrl.toNat % 2)) % 512
    let Y := (y + s.ppu.scrollY.toNat + 240 * (s.ppu.ctrl.toNat / 2 % 2)) % 480
    let table := 0x2000 + 0x400 * (2 * (Y / 240) + X / 256)
    let tx := X % 256 / 8
    let ty := Y % 240 / 8
    let tile := (s.ppuRead (BitVec.ofNat 16 (table + 32 * ty + tx))).toNat
    let attr := (s.ppuRead (BitVec.ofNat 16 (table + 0x3C0 + 8 * (ty / 4) + tx / 4))).toNat
    let group := attr / 4 ^ (2 * (ty / 2 % 2) + tx / 2 % 2) % 4
    let plane := 0x1000 * (s.ppu.ctrl.toNat / 16 % 2) + 16 * tile + Y % 8
    let colour := 2 * bit (s.ppuRead (BitVec.ofNat 16 (plane + 8))) (7 - X % 8) + bit (s.ppuRead (BitVec.ofNat 16 plane)) (7 - X % 8)
    let p := s.ppu.spritePixel
    let bg := if s.ppu.mask.getLsbD 3 then colour else 0
    let sp := if s.ppu.mask.getLsbD 4 then p.colour else 0
    let spriteIndex := 0x10 + 4 * (p.attr.toNat % 4) + sp
    let index := if sp = 0 then (if bg = 0 then 0 else 4 * group + bg) else if bg ≠ 0 ∧ p.attr.getLsbD 5 then 4 * group + bg else spriteIndex
    s.tick.events = s.events ++ [.pixel x y ((s.ppu.palette.read (palIndex index)).setWidth 6)]
      ∧ (s.tick.ppu.sprite0Hit = true ↔ s.ppu.sprite0Hit = true ∨ (s.params.sprite0Rule = .opaqueOverlap ∧ s.ppu.spr0InSlot0 = true
          ∧ p.slot = some 0 ∧ sp ≠ 0 ∧ bg ≠ 0 ∧ x ≠ 255))

/-- R385, R400: a visible line gives 256 pixels, in raster order, whatever the picture unit holds; other lines give none. -/
def Obligations.RasterOrder : Prop :=
  ∀ s : State, s.ppu.dot = 0 →
    let pixels := ((State.ticks 341 s).events.drop s.events.length).filterMap
      fun e => match e with | .pixel x y _ => some (x, y) | .frameComplete => none
    (0 ≤ s.ppu.scanline → s.ppu.scanline ≤ 239 → pixels = (List.range 256).map fun x => (x, s.ppu.scanline.toNat))
      ∧ (s.ppu.scanline = -1 ∨ (240 ≤ s.ppu.scanline ∧ s.ppu.scanline ≤ 260) → pixels = [])
end

