-- ==== Sys2Proof/Laws/Bits.lean ====
section
/-! SUPPORT. The laws of words and addresses, and where the stack and the vectors lie. -/

namespace Sys2Proof.Machine

@[simp] theorem lo_word (h l : Byte) : lo (word h l) = l := by
  apply BitVec.eq_of_getLsbD_eq
  intro i hi
  simp only [lo, word, BitVec.getLsbD_setWidth, BitVec.getLsbD_append]
  simp [hi]

@[simp] theorem hi_word (h l : Byte) : hi (word h l) = h := by
  apply BitVec.eq_of_getLsbD_eq
  intro i hi
  simp only [Machine.hi, word, BitVec.getLsbD_extractLsb', BitVec.getLsbD_append]
  simp [hi]

@[simp] theorem word_hi_lo (a : Addr) : word (hi a) (lo a) = a := by
  apply BitVec.eq_of_getLsbD_eq
  intro i h
  simp only [word, BitVec.getLsbD_append, hi, lo, BitVec.getLsbD_extractLsb', BitVec.getLsbD_setWidth]
  by_cases h8 : i < 8
  · simp [h8]
  · have : i - 8 < 8 := by omega
    simp [h8, this, show 8 + (i - 8) = i by omega]

theorem word_toNat (h l : Byte) : (word h l).toNat = h.toNat * 256 + l.toNat := by
  unfold word
  rw [BitVec.toNat_append, ← Nat.shiftLeft_add_eq_or_of_lt l.isLt, Nat.shiftLeft_eq]

theorem lo_toNat (a : Addr) : (lo a).toNat = a.toNat % 256 := by
  simp [lo]

theorem hi_toNat (a : Addr) : (hi a).toNat = a.toNat / 256 := by
  simp only [hi, BitVec.extractLsb'_toNat, Nat.shiftRight_eq_div_pow]
  have := a.isLt
  omega

theorem zext16_toNat (v : Byte) : (zext16 v).toNat = v.toNat := by
  simp only [zext16, BitVec.toNat_setWidth]
  have := v.isLt
  omega

theorem stackSlot_toNat (sp : Byte) : (stackSlot sp).toNat = 0x100 + sp.toNat := by
  revert sp
  decide

/-- The stack page is RAM (10_state R22, R33). -/
@[simp] theorem regionOf_stackSlot (sp : Byte) : regionOf (stackSlot sp) = .ram (0x100 + sp.toNat) := by
  have h := stackSlot_toNat sp
  have hs := sp.isLt
  simp only [regionOf, h]
  rw [if_pos (by omega), Nat.mod_eq_of_lt (by omega)]

/-- A zero-page address is RAM at its own index. -/
@[simp] theorem regionOf_zext16 (a : Byte) : regionOf (zext16 a) = .ram a.toNat := by
  have h := zext16_toNat a
  have hs := a.isLt
  simp only [regionOf, h]
  rw [if_pos (by omega), Nat.mod_eq_of_lt (by omega)]

/-- The page of a zero-page address is page 0, so its wrapped successor is in the zero page too. -/
@[simp] theorem nextInPage_zext16 (a : Byte) : nextInPage (zext16 a) = zext16 (a + 1) := by
  revert a
  decide

/-- `Read16Wrap`'s second address is in the page of the first. -/
theorem nextInPage_toNat (a : Addr) : (nextInPage a).toNat = a.toNat / 256 * 256 + (a.toNat + 1) % 256 := by
  unfold nextInPage
  rw [word_toNat, hi_toNat, BitVec.toNat_add, lo_toNat]
  simp

theorem pageCrossed_eq (a b : Addr) : pageCrossed a b = decide (a.toNat / 256 ≠ b.toNat / 256) := by
  unfold pageCrossed
  rw [← hi_toNat, ← hi_toNat]
  by_cases h : hi a = hi b
  · simp [h]
  · have : (hi a).toNat ≠ (hi b).toNat := fun e => h (BitVec.eq_of_toNat_eq e)
    simp [h, this]

@[simp] theorem pageCrossed_self (a : Addr) : pageCrossed a a = false := by simp [pageCrossed]

end Sys2Proof.Machine
end

