-- ==== Sys2Proof/Laws/State.lean ====
section
/-! SUPPORT. What each named update of the state does to each field, by rfl: an update and a projection never need unfolding again. -/

namespace Sys2Proof.Machine

@[simp] theorem State.setA_a (s : State) (v : Byte) : (s.setA v).a = v := rfl
@[simp] theorem State.setA_x (s : State) (v : Byte) : (s.setA v).x = s.x := rfl
@[simp] theorem State.setA_y (s : State) (v : Byte) : (s.setA v).y = s.y := rfl
@[simp] theorem State.setA_sp (s : State) (v : Byte) : (s.setA v).sp = s.sp := rfl
@[simp] theorem State.setA_pc (s : State) (v : Byte) : (s.setA v).pc = s.pc := rfl
@[simp] theorem State.setA_flags (s : State) (v : Byte) : (s.setA v).flags = s.flags := rfl
@[simp] theorem State.setA_nmiPending (s : State) (v : Byte) : (s.setA v).nmiPending = s.nmiPending := rfl
@[simp] theorem State.setA_cycles (s : State) (v : Byte) : (s.setA v).cycles = s.cycles := rfl
@[simp] theorem State.setA_halted (s : State) (v : Byte) : (s.setA v).halted = s.halted := rfl
@[simp] theorem State.setA_ram (s : State) (v : Byte) : (s.setA v).ram = s.ram := rfl
@[simp] theorem State.setA_ppu (s : State) (v : Byte) : (s.setA v).ppu = s.ppu := rfl
@[simp] theorem State.setA_cart (s : State) (v : Byte) : (s.setA v).cart = s.cart := rfl
@[simp] theorem State.setA_input1 (s : State) (v : Byte) : (s.setA v).input1 = s.input1 := rfl
@[simp] theorem State.setA_input2 (s : State) (v : Byte) : (s.setA v).input2 = s.input2 := rfl
@[simp] theorem State.setA_drawn (s : State) (v : Byte) : (s.setA v).drawn = s.drawn := rfl
@[simp] theorem State.setA_events (s : State) (v : Byte) : (s.setA v).events = s.events := rfl
@[simp] theorem State.setA_params (s : State) (v : Byte) : (s.setA v).params = s.params := rfl

@[simp] theorem State.setX_a (s : State) (v : Byte) : (s.setX v).a = s.a := rfl
@[simp] theorem State.setX_x (s : State) (v : Byte) : (s.setX v).x = v := rfl
@[simp] theorem State.setX_y (s : State) (v : Byte) : (s.setX v).y = s.y := rfl
@[simp] theorem State.setX_sp (s : State) (v : Byte) : (s.setX v).sp = s.sp := rfl
@[simp] theorem State.setX_pc (s : State) (v : Byte) : (s.setX v).pc = s.pc := rfl
@[simp] theorem State.setX_flags (s : State) (v : Byte) : (s.setX v).flags = s.flags := rfl
@[simp] theorem State.setX_nmiPending (s : State) (v : Byte) : (s.setX v).nmiPending = s.nmiPending := rfl
@[simp] theorem State.setX_cycles (s : State) (v : Byte) : (s.setX v).cycles = s.cycles := rfl
@[simp] theorem State.setX_halted (s : State) (v : Byte) : (s.setX v).halted = s.halted := rfl
@[simp] theorem State.setX_ram (s : State) (v : Byte) : (s.setX v).ram = s.ram := rfl
@[simp] theorem State.setX_ppu (s : State) (v : Byte) : (s.setX v).ppu = s.ppu := rfl
@[simp] theorem State.setX_cart (s : State) (v : Byte) : (s.setX v).cart = s.cart := rfl
@[simp] theorem State.setX_input1 (s : State) (v : Byte) : (s.setX v).input1 = s.input1 := rfl
@[simp] theorem State.setX_input2 (s : State) (v : Byte) : (s.setX v).input2 = s.input2 := rfl
@[simp] theorem State.setX_drawn (s : State) (v : Byte) : (s.setX v).drawn = s.drawn := rfl
@[simp] theorem State.setX_events (s : State) (v : Byte) : (s.setX v).events = s.events := rfl
@[simp] theorem State.setX_params (s : State) (v : Byte) : (s.setX v).params = s.params := rfl

@[simp] theorem State.setY_a (s : State) (v : Byte) : (s.setY v).a = s.a := rfl
@[simp] theorem State.setY_x (s : State) (v : Byte) : (s.setY v).x = s.x := rfl
@[simp] theorem State.setY_y (s : State) (v : Byte) : (s.setY v).y = v := rfl
@[simp] theorem State.setY_sp (s : State) (v : Byte) : (s.setY v).sp = s.sp := rfl
@[simp] theorem State.setY_pc (s : State) (v : Byte) : (s.setY v).pc = s.pc := rfl
@[simp] theorem State.setY_flags (s : State) (v : Byte) : (s.setY v).flags = s.flags := rfl
@[simp] theorem State.setY_nmiPending (s : State) (v : Byte) : (s.setY v).nmiPending = s.nmiPending := rfl
@[simp] theorem State.setY_cycles (s : State) (v : Byte) : (s.setY v).cycles = s.cycles := rfl
@[simp] theorem State.setY_halted (s : State) (v : Byte) : (s.setY v).halted = s.halted := rfl
@[simp] theorem State.setY_ram (s : State) (v : Byte) : (s.setY v).ram = s.ram := rfl
@[simp] theorem State.setY_ppu (s : State) (v : Byte) : (s.setY v).ppu = s.ppu := rfl
@[simp] theorem State.setY_cart (s : State) (v : Byte) : (s.setY v).cart = s.cart := rfl
@[simp] theorem State.setY_input1 (s : State) (v : Byte) : (s.setY v).input1 = s.input1 := rfl
@[simp] theorem State.setY_input2 (s : State) (v : Byte) : (s.setY v).input2 = s.input2 := rfl
@[simp] theorem State.setY_drawn (s : State) (v : Byte) : (s.setY v).drawn = s.drawn := rfl
@[simp] theorem State.setY_events (s : State) (v : Byte) : (s.setY v).events = s.events := rfl
@[simp] theorem State.setY_params (s : State) (v : Byte) : (s.setY v).params = s.params := rfl

@[simp] theorem State.setSp_a (s : State) (v : Byte) : (s.setSp v).a = s.a := rfl
@[simp] theorem State.setSp_x (s : State) (v : Byte) : (s.setSp v).x = s.x := rfl
@[simp] theorem State.setSp_y (s : State) (v : Byte) : (s.setSp v).y = s.y := rfl
@[simp] theorem State.setSp_sp (s : State) (v : Byte) : (s.setSp v).sp = v := rfl
@[simp] theorem State.setSp_pc (s : State) (v : Byte) : (s.setSp v).pc = s.pc := rfl
@[simp] theorem State.setSp_flags (s : State) (v : Byte) : (s.setSp v).flags = s.flags := rfl
@[simp] theorem State.setSp_nmiPending (s : State) (v : Byte) : (s.setSp v).nmiPending = s.nmiPending := rfl
@[simp] theorem State.setSp_cycles (s : State) (v : Byte) : (s.setSp v).cycles = s.cycles := rfl
@[simp] theorem State.setSp_halted (s : State) (v : Byte) : (s.setSp v).halted = s.halted := rfl
@[simp] theorem State.setSp_ram (s : State) (v : Byte) : (s.setSp v).ram = s.ram := rfl
@[simp] theorem State.setSp_ppu (s : State) (v : Byte) : (s.setSp v).ppu = s.ppu := rfl
@[simp] theorem State.setSp_cart (s : State) (v : Byte) : (s.setSp v).cart = s.cart := rfl
@[simp] theorem State.setSp_input1 (s : State) (v : Byte) : (s.setSp v).input1 = s.input1 := rfl
@[simp] theorem State.setSp_input2 (s : State) (v : Byte) : (s.setSp v).input2 = s.input2 := rfl
@[simp] theorem State.setSp_drawn (s : State) (v : Byte) : (s.setSp v).drawn = s.drawn := rfl
@[simp] theorem State.setSp_events (s : State) (v : Byte) : (s.setSp v).events = s.events := rfl
@[simp] theorem State.setSp_params (s : State) (v : Byte) : (s.setSp v).params = s.params := rfl

@[simp] theorem State.setPc_a (s : State) (v : Addr) : (s.setPc v).a = s.a := rfl
@[simp] theorem State.setPc_x (s : State) (v : Addr) : (s.setPc v).x = s.x := rfl
@[simp] theorem State.setPc_y (s : State) (v : Addr) : (s.setPc v).y = s.y := rfl
@[simp] theorem State.setPc_sp (s : State) (v : Addr) : (s.setPc v).sp = s.sp := rfl
@[simp] theorem State.setPc_pc (s : State) (v : Addr) : (s.setPc v).pc = v := rfl
@[simp] theorem State.setPc_flags (s : State) (v : Addr) : (s.setPc v).flags = s.flags := rfl
@[simp] theorem State.setPc_nmiPending (s : State) (v : Addr) : (s.setPc v).nmiPending = s.nmiPending := rfl
@[simp] theorem State.setPc_cycles (s : State) (v : Addr) : (s.setPc v).cycles = s.cycles := rfl
@[simp] theorem State.setPc_halted (s : State) (v : Addr) : (s.setPc v).halted = s.halted := rfl
@[simp] theorem State.setPc_ram (s : State) (v : Addr) : (s.setPc v).ram = s.ram := rfl
@[simp] theorem State.setPc_ppu (s : State) (v : Addr) : (s.setPc v).ppu = s.ppu := rfl
@[simp] theorem State.setPc_cart (s : State) (v : Addr) : (s.setPc v).cart = s.cart := rfl
@[simp] theorem State.setPc_input1 (s : State) (v : Addr) : (s.setPc v).input1 = s.input1 := rfl
@[simp] theorem State.setPc_input2 (s : State) (v : Addr) : (s.setPc v).input2 = s.input2 := rfl
@[simp] theorem State.setPc_drawn (s : State) (v : Addr) : (s.setPc v).drawn = s.drawn := rfl
@[simp] theorem State.setPc_events (s : State) (v : Addr) : (s.setPc v).events = s.events := rfl
@[simp] theorem State.setPc_params (s : State) (v : Addr) : (s.setPc v).params = s.params := rfl

@[simp] theorem State.setFlags_a (s : State) (v : Flags) : (s.setFlags v).a = s.a := rfl
@[simp] theorem State.setFlags_x (s : State) (v : Flags) : (s.setFlags v).x = s.x := rfl
@[simp] theorem State.setFlags_y (s : State) (v : Flags) : (s.setFlags v).y = s.y := rfl
@[simp] theorem State.setFlags_sp (s : State) (v : Flags) : (s.setFlags v).sp = s.sp := rfl
@[simp] theorem State.setFlags_pc (s : State) (v : Flags) : (s.setFlags v).pc = s.pc := rfl
@[simp] theorem State.setFlags_flags (s : State) (v : Flags) : (s.setFlags v).flags = v := rfl
@[simp] theorem State.setFlags_nmiPending (s : State) (v : Flags) : (s.setFlags v).nmiPending = s.nmiPending := rfl
@[simp] theorem State.setFlags_cycles (s : State) (v : Flags) : (s.setFlags v).cycles = s.cycles := rfl
@[simp] theorem State.setFlags_halted (s : State) (v : Flags) : (s.setFlags v).halted = s.halted := rfl
@[simp] theorem State.setFlags_ram (s : State) (v : Flags) : (s.setFlags v).ram = s.ram := rfl
@[simp] theorem State.setFlags_ppu (s : State) (v : Flags) : (s.setFlags v).ppu = s.ppu := rfl
@[simp] theorem State.setFlags_cart (s : State) (v : Flags) : (s.setFlags v).cart = s.cart := rfl
@[simp] theorem State.setFlags_input1 (s : State) (v : Flags) : (s.setFlags v).input1 = s.input1 := rfl
@[simp] theorem State.setFlags_input2 (s : State) (v : Flags) : (s.setFlags v).input2 = s.input2 := rfl
@[simp] theorem State.setFlags_drawn (s : State) (v : Flags) : (s.setFlags v).drawn = s.drawn := rfl
@[simp] theorem State.setFlags_events (s : State) (v : Flags) : (s.setFlags v).events = s.events := rfl
@[simp] theorem State.setFlags_params (s : State) (v : Flags) : (s.setFlags v).params = s.params := rfl

@[simp] theorem State.setNmiPending_a (s : State) (v : Bool) : (s.setNmiPending v).a = s.a := rfl
@[simp] theorem State.setNmiPending_x (s : State) (v : Bool) : (s.setNmiPending v).x = s.x := rfl
@[simp] theorem State.setNmiPending_y (s : State) (v : Bool) : (s.setNmiPending v).y = s.y := rfl
@[simp] theorem State.setNmiPending_sp (s : State) (v : Bool) : (s.setNmiPending v).sp = s.sp := rfl
@[simp] theorem State.setNmiPending_pc (s : State) (v : Bool) : (s.setNmiPending v).pc = s.pc := rfl
@[simp] theorem State.setNmiPending_flags (s : State) (v : Bool) : (s.setNmiPending v).flags = s.flags := rfl
@[simp] theorem State.setNmiPending_nmiPending (s : State) (v : Bool) : (s.setNmiPending v).nmiPending = v := rfl
@[simp] theorem State.setNmiPending_cycles (s : State) (v : Bool) : (s.setNmiPending v).cycles = s.cycles := rfl
@[simp] theorem State.setNmiPending_halted (s : State) (v : Bool) : (s.setNmiPending v).halted = s.halted := rfl
@[simp] theorem State.setNmiPending_ram (s : State) (v : Bool) : (s.setNmiPending v).ram = s.ram := rfl
@[simp] theorem State.setNmiPending_ppu (s : State) (v : Bool) : (s.setNmiPending v).ppu = s.ppu := rfl
@[simp] theorem State.setNmiPending_cart (s : State) (v : Bool) : (s.setNmiPending v).cart = s.cart := rfl
@[simp] theorem State.setNmiPending_input1 (s : State) (v : Bool) : (s.setNmiPending v).input1 = s.input1 := rfl
@[simp] theorem State.setNmiPending_input2 (s : State) (v : Bool) : (s.setNmiPending v).input2 = s.input2 := rfl
@[simp] theorem State.setNmiPending_drawn (s : State) (v : Bool) : (s.setNmiPending v).drawn = s.drawn := rfl
@[simp] theorem State.setNmiPending_events (s : State) (v : Bool) : (s.setNmiPending v).events = s.events := rfl
@[simp] theorem State.setNmiPending_params (s : State) (v : Bool) : (s.setNmiPending v).params = s.params := rfl

@[simp] theorem State.setCycles_a (s : State) (v : Nat) : (s.setCycles v).a = s.a := rfl
@[simp] theorem State.setCycles_x (s : State) (v : Nat) : (s.setCycles v).x = s.x := rfl
@[simp] theorem State.setCycles_y (s : State) (v : Nat) : (s.setCycles v).y = s.y := rfl
@[simp] theorem State.setCycles_sp (s : State) (v : Nat) : (s.setCycles v).sp = s.sp := rfl
@[simp] theorem State.setCycles_pc (s : State) (v : Nat) : (s.setCycles v).pc = s.pc := rfl
@[simp] theorem State.setCycles_flags (s : State) (v : Nat) : (s.setCycles v).flags = s.flags := rfl
@[simp] theorem State.setCycles_nmiPending (s : State) (v : Nat) : (s.setCycles v).nmiPending = s.nmiPending := rfl
@[simp] theorem State.setCycles_cycles (s : State) (v : Nat) : (s.setCycles v).cycles = v := rfl
@[simp] theorem State.setCycles_halted (s : State) (v : Nat) : (s.setCycles v).halted = s.halted := rfl
@[simp] theorem State.setCycles_ram (s : State) (v : Nat) : (s.setCycles v).ram = s.ram := rfl
@[simp] theorem State.setCycles_ppu (s : State) (v : Nat) : (s.setCycles v).ppu = s.ppu := rfl
@[simp] theorem State.setCycles_cart (s : State) (v : Nat) : (s.setCycles v).cart = s.cart := rfl
@[simp] theorem State.setCycles_input1 (s : State) (v : Nat) : (s.setCycles v).input1 = s.input1 := rfl
@[simp] theorem State.setCycles_input2 (s : State) (v : Nat) : (s.setCycles v).input2 = s.input2 := rfl
@[simp] theorem State.setCycles_drawn (s : State) (v : Nat) : (s.setCycles v).drawn = s.drawn := rfl
@[simp] theorem State.setCycles_events (s : State) (v : Nat) : (s.setCycles v).events = s.events := rfl
@[simp] theorem State.setCycles_params (s : State) (v : Nat) : (s.setCycles v).params = s.params := rfl

@[simp] theorem State.setHalted_a (s : State) (v : Option (Addr × Byte)) : (s.setHalted v).a = s.a := rfl
@[simp] theorem State.setHalted_x (s : State) (v : Option (Addr × Byte)) : (s.setHalted v).x = s.x := rfl
@[simp] theorem State.setHalted_y (s : State) (v : Option (Addr × Byte)) : (s.setHalted v).y = s.y := rfl
@[simp] theorem State.setHalted_sp (s : State) (v : Option (Addr × Byte)) : (s.setHalted v).sp = s.sp := rfl
@[simp] theorem State.setHalted_pc (s : State) (v : Option (Addr × Byte)) : (s.setHalted v).pc = s.pc := rfl
@[simp] theorem State.setHalted_flags (s : State) (v : Option (Addr × Byte)) : (s.setHalted v).flags = s.flags := rfl
@[simp] theorem State.setHalted_nmiPending (s : State) (v : Option (Addr × Byte)) : (s.setHalted v).nmiPending = s.nmiPending := rfl
@[simp] theorem State.setHalted_cycles (s : State) (v : Option (Addr × Byte)) : (s.setHalted v).cycles = s.cycles := rfl
@[simp] theorem State.setHalted_halted (s : State) (v : Option (Addr × Byte)) : (s.setHalted v).halted = v := rfl
@[simp] theorem State.setHalted_ram (s : State) (v : Option (Addr × Byte)) : (s.setHalted v).ram = s.ram := rfl
@[simp] theorem State.setHalted_ppu (s : State) (v : Option (Addr × Byte)) : (s.setHalted v).ppu = s.ppu := rfl
@[simp] theorem State.setHalted_cart (s : State) (v : Option (Addr × Byte)) : (s.setHalted v).cart = s.cart := rfl
@[simp] theorem State.setHalted_input1 (s : State) (v : Option (Addr × Byte)) : (s.setHalted v).input1 = s.input1 := rfl
@[simp] theorem State.setHalted_input2 (s : State) (v : Option (Addr × Byte)) : (s.setHalted v).input2 = s.input2 := rfl
@[simp] theorem State.setHalted_drawn (s : State) (v : Option (Addr × Byte)) : (s.setHalted v).drawn = s.drawn := rfl
@[simp] theorem State.setHalted_events (s : State) (v : Option (Addr × Byte)) : (s.setHalted v).events = s.events := rfl
@[simp] theorem State.setHalted_params (s : State) (v : Option (Addr × Byte)) : (s.setHalted v).params = s.params := rfl

@[simp] theorem State.setRam_a (s : State) (v : Memory) : (s.setRam v).a = s.a := rfl
@[simp] theorem State.setRam_x (s : State) (v : Memory) : (s.setRam v).x = s.x := rfl
@[simp] theorem State.setRam_y (s : State) (v : Memory) : (s.setRam v).y = s.y := rfl
@[simp] theorem State.setRam_sp (s : State) (v : Memory) : (s.setRam v).sp = s.sp := rfl
@[simp] theorem State.setRam_pc (s : State) (v : Memory) : (s.setRam v).pc = s.pc := rfl
@[simp] theorem State.setRam_flags (s : State) (v : Memory) : (s.setRam v).flags = s.flags := rfl
@[simp] theorem State.setRam_nmiPending (s : State) (v : Memory) : (s.setRam v).nmiPending = s.nmiPending := rfl
@[simp] theorem State.setRam_cycles (s : State) (v : Memory) : (s.setRam v).cycles = s.cycles := rfl
@[simp] theorem State.setRam_halted (s : State) (v : Memory) : (s.setRam v).halted = s.halted := rfl
@[simp] theorem State.setRam_ram (s : State) (v : Memory) : (s.setRam v).ram = v := rfl
@[simp] theorem State.setRam_ppu (s : State) (v : Memory) : (s.setRam v).ppu = s.ppu := rfl
@[simp] theorem State.setRam_cart (s : State) (v : Memory) : (s.setRam v).cart = s.cart := rfl
@[simp] theorem State.setRam_input1 (s : State) (v : Memory) : (s.setRam v).input1 = s.input1 := rfl
@[simp] theorem State.setRam_input2 (s : State) (v : Memory) : (s.setRam v).input2 = s.input2 := rfl
@[simp] theorem State.setRam_drawn (s : State) (v : Memory) : (s.setRam v).drawn = s.drawn := rfl
@[simp] theorem State.setRam_events (s : State) (v : Memory) : (s.setRam v).events = s.events := rfl
@[simp] theorem State.setRam_params (s : State) (v : Memory) : (s.setRam v).params = s.params := rfl

@[simp] theorem State.setPpu_a (s : State) (v : Ppu) : (s.setPpu v).a = s.a := rfl
@[simp] theorem State.setPpu_x (s : State) (v : Ppu) : (s.setPpu v).x = s.x := rfl
@[simp] theorem State.setPpu_y (s : State) (v : Ppu) : (s.setPpu v).y = s.y := rfl
@[simp] theorem State.setPpu_sp (s : State) (v : Ppu) : (s.setPpu v).sp = s.sp := rfl
@[simp] theorem State.setPpu_pc (s : State) (v : Ppu) : (s.setPpu v).pc = s.pc := rfl
@[simp] theorem State.setPpu_flags (s : State) (v : Ppu) : (s.setPpu v).flags = s.flags := rfl
@[simp] theorem State.setPpu_nmiPending (s : State) (v : Ppu) : (s.setPpu v).nmiPending = s.nmiPending := rfl
@[simp] theorem State.setPpu_cycles (s : State) (v : Ppu) : (s.setPpu v).cycles = s.cycles := rfl
@[simp] theorem State.setPpu_halted (s : State) (v : Ppu) : (s.setPpu v).halted = s.halted := rfl
@[simp] theorem State.setPpu_ram (s : State) (v : Ppu) : (s.setPpu v).ram = s.ram := rfl
@[simp] theorem State.setPpu_ppu (s : State) (v : Ppu) : (s.setPpu v).ppu = v := rfl
@[simp] theorem State.setPpu_cart (s : State) (v : Ppu) : (s.setPpu v).cart = s.cart := rfl
@[simp] theorem State.setPpu_input1 (s : State) (v : Ppu) : (s.setPpu v).input1 = s.input1 := rfl
@[simp] theorem State.setPpu_input2 (s : State) (v : Ppu) : (s.setPpu v).input2 = s.input2 := rfl
@[simp] theorem State.setPpu_drawn (s : State) (v : Ppu) : (s.setPpu v).drawn = s.drawn := rfl
@[simp] theorem State.setPpu_events (s : State) (v : Ppu) : (s.setPpu v).events = s.events := rfl
@[simp] theorem State.setPpu_params (s : State) (v : Ppu) : (s.setPpu v).params = s.params := rfl

@[simp] theorem State.setCart_a (s : State) (v : Cart) : (s.setCart v).a = s.a := rfl
@[simp] theorem State.setCart_x (s : State) (v : Cart) : (s.setCart v).x = s.x := rfl
@[simp] theorem State.setCart_y (s : State) (v : Cart) : (s.setCart v).y = s.y := rfl
@[simp] theorem State.setCart_sp (s : State) (v : Cart) : (s.setCart v).sp = s.sp := rfl
@[simp] theorem State.setCart_pc (s : State) (v : Cart) : (s.setCart v).pc = s.pc := rfl
@[simp] theorem State.setCart_flags (s : State) (v : Cart) : (s.setCart v).flags = s.flags := rfl
@[simp] theorem State.setCart_nmiPending (s : State) (v : Cart) : (s.setCart v).nmiPending = s.nmiPending := rfl
@[simp] theorem State.setCart_cycles (s : State) (v : Cart) : (s.setCart v).cycles = s.cycles := rfl
@[simp] theorem State.setCart_halted (s : State) (v : Cart) : (s.setCart v).halted = s.halted := rfl
@[simp] theorem State.setCart_ram (s : State) (v : Cart) : (s.setCart v).ram = s.ram := rfl
@[simp] theorem State.setCart_ppu (s : State) (v : Cart) : (s.setCart v).ppu = s.ppu := rfl
@[simp] theorem State.setCart_cart (s : State) (v : Cart) : (s.setCart v).cart = v := rfl
@[simp] theorem State.setCart_input1 (s : State) (v : Cart) : (s.setCart v).input1 = s.input1 := rfl
@[simp] theorem State.setCart_input2 (s : State) (v : Cart) : (s.setCart v).input2 = s.input2 := rfl
@[simp] theorem State.setCart_drawn (s : State) (v : Cart) : (s.setCart v).drawn = s.drawn := rfl
@[simp] theorem State.setCart_events (s : State) (v : Cart) : (s.setCart v).events = s.events := rfl
@[simp] theorem State.setCart_params (s : State) (v : Cart) : (s.setCart v).params = s.params := rfl

@[simp] theorem State.setInput1_a (s : State) (v : InputDevice) : (s.setInput1 v).a = s.a := rfl
@[simp] theorem State.setInput1_x (s : State) (v : InputDevice) : (s.setInput1 v).x = s.x := rfl
@[simp] theorem State.setInput1_y (s : State) (v : InputDevice) : (s.setInput1 v).y = s.y := rfl
@[simp] theorem State.setInput1_sp (s : State) (v : InputDevice) : (s.setInput1 v).sp = s.sp := rfl
@[simp] theorem State.setInput1_pc (s : State) (v : InputDevice) : (s.setInput1 v).pc = s.pc := rfl
@[simp] theorem State.setInput1_flags (s : State) (v : InputDevice) : (s.setInput1 v).flags = s.flags := rfl
@[simp] theorem State.setInput1_nmiPending (s : State) (v : InputDevice) : (s.setInput1 v).nmiPending = s.nmiPending := rfl
@[simp] theorem State.setInput1_cycles (s : State) (v : InputDevice) : (s.setInput1 v).cycles = s.cycles := rfl
@[simp] theorem State.setInput1_halted (s : State) (v : InputDevice) : (s.setInput1 v).halted = s.halted := rfl
@[simp] theorem State.setInput1_ram (s : State) (v : InputDevice) : (s.setInput1 v).ram = s.ram := rfl
@[simp] theorem State.setInput1_ppu (s : State) (v : InputDevice) : (s.setInput1 v).ppu = s.ppu := rfl
@[simp] theorem State.setInput1_cart (s : State) (v : InputDevice) : (s.setInput1 v).cart = s.cart := rfl
@[simp] theorem State.setInput1_input1 (s : State) (v : InputDevice) : (s.setInput1 v).input1 = v := rfl
@[simp] theorem State.setInput1_input2 (s : State) (v : InputDevice) : (s.setInput1 v).input2 = s.input2 := rfl
@[simp] theorem State.setInput1_drawn (s : State) (v : InputDevice) : (s.setInput1 v).drawn = s.drawn := rfl
@[simp] theorem State.setInput1_events (s : State) (v : InputDevice) : (s.setInput1 v).events = s.events := rfl
@[simp] theorem State.setInput1_params (s : State) (v : InputDevice) : (s.setInput1 v).params = s.params := rfl

@[simp] theorem State.setInput2_a (s : State) (v : InputDevice) : (s.setInput2 v).a = s.a := rfl
@[simp] theorem State.setInput2_x (s : State) (v : InputDevice) : (s.setInput2 v).x = s.x := rfl
@[simp] theorem State.setInput2_y (s : State) (v : InputDevice) : (s.setInput2 v).y = s.y := rfl
@[simp] theorem State.setInput2_sp (s : State) (v : InputDevice) : (s.setInput2 v).sp = s.sp := rfl
@[simp] theorem State.setInput2_pc (s : State) (v : InputDevice) : (s.setInput2 v).pc = s.pc := rfl
@[simp] theorem State.setInput2_flags (s : State) (v : InputDevice) : (s.setInput2 v).flags = s.flags := rfl
@[simp] theorem State.setInput2_nmiPending (s : State) (v : InputDevice) : (s.setInput2 v).nmiPending = s.nmiPending := rfl
@[simp] theorem State.setInput2_cycles (s : State) (v : InputDevice) : (s.setInput2 v).cycles = s.cycles := rfl
@[simp] theorem State.setInput2_halted (s : State) (v : InputDevice) : (s.setInput2 v).halted = s.halted := rfl
@[simp] theorem State.setInput2_ram (s : State) (v : InputDevice) : (s.setInput2 v).ram = s.ram := rfl
@[simp] theorem State.setInput2_ppu (s : State) (v : InputDevice) : (s.setInput2 v).ppu = s.ppu := rfl
@[simp] theorem State.setInput2_cart (s : State) (v : InputDevice) : (s.setInput2 v).cart = s.cart := rfl
@[simp] theorem State.setInput2_input1 (s : State) (v : InputDevice) : (s.setInput2 v).input1 = s.input1 := rfl
@[simp] theorem State.setInput2_input2 (s : State) (v : InputDevice) : (s.setInput2 v).input2 = v := rfl
@[simp] theorem State.setInput2_drawn (s : State) (v : InputDevice) : (s.setInput2 v).drawn = s.drawn := rfl
@[simp] theorem State.setInput2_events (s : State) (v : InputDevice) : (s.setInput2 v).events = s.events := rfl
@[simp] theorem State.setInput2_params (s : State) (v : InputDevice) : (s.setInput2 v).params = s.params := rfl

@[simp] theorem State.setDrawn_a (s : State) (v : Nat) : (s.setDrawn v).a = s.a := rfl
@[simp] theorem State.setDrawn_x (s : State) (v : Nat) : (s.setDrawn v).x = s.x := rfl
@[simp] theorem State.setDrawn_y (s : State) (v : Nat) : (s.setDrawn v).y = s.y := rfl
@[simp] theorem State.setDrawn_sp (s : State) (v : Nat) : (s.setDrawn v).sp = s.sp := rfl
@[simp] theorem State.setDrawn_pc (s : State) (v : Nat) : (s.setDrawn v).pc = s.pc := rfl
@[simp] theorem State.setDrawn_flags (s : State) (v : Nat) : (s.setDrawn v).flags = s.flags := rfl
@[simp] theorem State.setDrawn_nmiPending (s : State) (v : Nat) : (s.setDrawn v).nmiPending = s.nmiPending := rfl
@[simp] theorem State.setDrawn_cycles (s : State) (v : Nat) : (s.setDrawn v).cycles = s.cycles := rfl
@[simp] theorem State.setDrawn_halted (s : State) (v : Nat) : (s.setDrawn v).halted = s.halted := rfl
@[simp] theorem State.setDrawn_ram (s : State) (v : Nat) : (s.setDrawn v).ram = s.ram := rfl
@[simp] theorem State.setDrawn_ppu (s : State) (v : Nat) : (s.setDrawn v).ppu = s.ppu := rfl
@[simp] theorem State.setDrawn_cart (s : State) (v : Nat) : (s.setDrawn v).cart = s.cart := rfl
@[simp] theorem State.setDrawn_input1 (s : State) (v : Nat) : (s.setDrawn v).input1 = s.input1 := rfl
@[simp] theorem State.setDrawn_input2 (s : State) (v : Nat) : (s.setDrawn v).input2 = s.input2 := rfl
@[simp] theorem State.setDrawn_drawn (s : State) (v : Nat) : (s.setDrawn v).drawn = v := rfl
@[simp] theorem State.setDrawn_events (s : State) (v : Nat) : (s.setDrawn v).events = s.events := rfl
@[simp] theorem State.setDrawn_params (s : State) (v : Nat) : (s.setDrawn v).params = s.params := rfl

@[simp] theorem State.setEvents_a (s : State) (v : List Event) : (s.setEvents v).a = s.a := rfl
@[simp] theorem State.setEvents_x (s : State) (v : List Event) : (s.setEvents v).x = s.x := rfl
@[simp] theorem State.setEvents_y (s : State) (v : List Event) : (s.setEvents v).y = s.y := rfl
@[simp] theorem State.setEvents_sp (s : State) (v : List Event) : (s.setEvents v).sp = s.sp := rfl
@[simp] theorem State.setEvents_pc (s : State) (v : List Event) : (s.setEvents v).pc = s.pc := rfl
@[simp] theorem State.setEvents_flags (s : State) (v : List Event) : (s.setEvents v).flags = s.flags := rfl
@[simp] theorem State.setEvents_nmiPending (s : State) (v : List Event) : (s.setEvents v).nmiPending = s.nmiPending := rfl
@[simp] theorem State.setEvents_cycles (s : State) (v : List Event) : (s.setEvents v).cycles = s.cycles := rfl
@[simp] theorem State.setEvents_halted (s : State) (v : List Event) : (s.setEvents v).halted = s.halted := rfl
@[simp] theorem State.setEvents_ram (s : State) (v : List Event) : (s.setEvents v).ram = s.ram := rfl
@[simp] theorem State.setEvents_ppu (s : State) (v : List Event) : (s.setEvents v).ppu = s.ppu := rfl
@[simp] theorem State.setEvents_cart (s : State) (v : List Event) : (s.setEvents v).cart = s.cart := rfl
@[simp] theorem State.setEvents_input1 (s : State) (v : List Event) : (s.setEvents v).input1 = s.input1 := rfl
@[simp] theorem State.setEvents_input2 (s : State) (v : List Event) : (s.setEvents v).input2 = s.input2 := rfl
@[simp] theorem State.setEvents_drawn (s : State) (v : List Event) : (s.setEvents v).drawn = s.drawn := rfl
@[simp] theorem State.setEvents_events (s : State) (v : List Event) : (s.setEvents v).events = v := rfl
@[simp] theorem State.setEvents_params (s : State) (v : List Event) : (s.setEvents v).params = s.params := rfl

/-- Two states with the same fields are the same state. -/
theorem State.eq_of_fields {s t : State} (h_a : s.a = t.a)
    (h_x : s.x = t.x)
    (h_y : s.y = t.y)
    (h_sp : s.sp = t.sp)
    (h_pc : s.pc = t.pc)
    (h_flags : s.flags = t.flags)
    (h_nmiPending : s.nmiPending = t.nmiPending)
    (h_cycles : s.cycles = t.cycles)
    (h_halted : s.halted = t.halted)
    (h_ram : s.ram = t.ram)
    (h_ppu : s.ppu = t.ppu)
    (h_cart : s.cart = t.cart)
    (h_input1 : s.input1 = t.input1)
    (h_input2 : s.input2 = t.input2)
    (h_drawn : s.drawn = t.drawn)
    (h_events : s.events = t.events)
    (h_params : s.params = t.params)
    : s = t := by
  cases s
  cases t
  simp_all

end Sys2Proof.Machine
end

