-- ==== Sys2Proof/Laws/Bus.lean ====
section
/-! SUPPORT. What the two bus operations can do: a read of a quiet address changes nothing, every other read changes one device, a write changes one owner's
state; both leave every processor register alone. -/

namespace Sys2Proof.Machine

/-- Everything a read can do to the state (20_memory R77). -/
theorem State.cpuRead_cases (s : State) (a : Addr) :
    (s.cpuRead a).2 = s
      ∨ (s.cpuRead a).2 = s.setPpu { s.ppu with vblank := false, w := false }
      ∨ (s.cpuRead a).2 = s.setPpu { s.ppu with vramAddr := s.ppu.vramAddr + s.ppu.increment }
      ∨ (s.cpuRead a).2 = (s.setInput1 (s.input1.read s.drawn).2.1).setDrawn (s.drawn + 1)
      ∨ (s.cpuRead a).2 = (s.setInput2 (s.input2.read s.drawn).2.1).setDrawn (s.drawn + 1) := by
  unfold State.cpuRead
  split
  case h_2 r _ => cases r <;> simp [State.regRead]
  all_goals first | exact .inl rfl | exact .inr (.inr (.inr (.inl rfl))) | exact .inr (.inr (.inr (.inr rfl)))

/-- A read of a quiet address has no side effect (20_memory R77). -/
theorem State.cpuRead_quiet {s : State} {a : Addr} (h : quiet a = true) : (s.cpuRead a).2 = s := by
  unfold quiet at h
  unfold State.cpuRead
  split <;> simp_all

@[simp] theorem State.cpuRead_a (s : State) (a : Addr) : (s.cpuRead a).2.a = s.a := by
  rcases s.cpuRead_cases a with h | h | h | h | h <;> simp [h]

@[simp] theorem State.cpuRead_x (s : State) (a : Addr) : (s.cpuRead a).2.x = s.x := by
  rcases s.cpuRead_cases a with h | h | h | h | h <;> simp [h]

@[simp] theorem State.cpuRead_y (s : State) (a : Addr) : (s.cpuRead a).2.y = s.y := by
  rcases s.cpuRead_cases a with h | h | h | h | h <;> simp [h]

@[simp] theorem State.cpuRead_sp (s : State) (a : Addr) : (s.cpuRead a).2.sp = s.sp := by
  rcases s.cpuRead_cases a with h | h | h | h | h <;> simp [h]

@[simp] theorem State.cpuRead_pc (s : State) (a : Addr) : (s.cpuRead a).2.pc = s.pc := by
  rcases s.cpuRead_cases a with h | h | h | h | h <;> simp [h]

@[simp] theorem State.cpuRead_flags (s : State) (a : Addr) : (s.cpuRead a).2.flags = s.flags := by
  rcases s.cpuRead_cases a with h | h | h | h | h <;> simp [h]

@[simp] theorem State.cpuRead_nmiPending (s : State) (a : Addr) : (s.cpuRead a).2.nmiPending = s.nmiPending := by
  rcases s.cpuRead_cases a with h | h | h | h | h <;> simp [h]

@[simp] theorem State.cpuRead_cycles (s : State) (a : Addr) : (s.cpuRead a).2.cycles = s.cycles := by
  rcases s.cpuRead_cases a with h | h | h | h | h <;> simp [h]

@[simp] theorem State.cpuRead_halted (s : State) (a : Addr) : (s.cpuRead a).2.halted = s.halted := by
  rcases s.cpuRead_cases a with h | h | h | h | h <;> simp [h]

@[simp] theorem State.cpuRead_ram (s : State) (a : Addr) : (s.cpuRead a).2.ram = s.ram := by
  rcases s.cpuRead_cases a with h | h | h | h | h <;> simp [h]

@[simp] theorem State.cpuRead_cart (s : State) (a : Addr) : (s.cpuRead a).2.cart = s.cart := by
  rcases s.cpuRead_cases a with h | h | h | h | h <;> simp [h]

@[simp] theorem State.cpuRead_params (s : State) (a : Addr) : (s.cpuRead a).2.params = s.params := by
  rcases s.cpuRead_cases a with h | h | h | h | h <;> simp [h]

@[simp] theorem State.cpuRead_events (s : State) (a : Addr) : (s.cpuRead a).2.events = s.events := by
  rcases s.cpuRead_cases a with h | h | h | h | h <;> simp [h]

/-- Reads leave all of the picture unit but `vblank`, `w` and `vram_addr` alone. -/
theorem State.cpuRead_ppu (s : State) (a : Addr) : ∃ vb w va, (s.cpuRead a).2.ppu = { s.ppu with vblank := vb, w := w, vramAddr := va } := by
  rcases s.cpuRead_cases a with h | h | h | h | h
  · exact ⟨s.ppu.vblank, s.ppu.w, s.ppu.vramAddr, by rw [h]⟩
  · exact ⟨false, false, s.ppu.vramAddr, by rw [h]; rfl⟩
  · exact ⟨s.ppu.vblank, s.ppu.w, s.ppu.vramAddr + s.ppu.increment, by rw [h]; rfl⟩
  · exact ⟨s.ppu.vblank, s.ppu.w, s.ppu.vramAddr, by rw [h]; rfl⟩
  · exact ⟨s.ppu.vblank, s.ppu.w, s.ppu.vramAddr, by rw [h]; rfl⟩

/-- What holds of a state and is kept by every byte of the OAM copy holds after the copy. -/
theorem State.oamDmaLast_induct {P : State → Prop} {v : Byte} (step : ∀ s i, P s → P (s.oamDmaByte v i)) :
    ∀ n s, P s → P (State.oamDmaLast v n s)
  | 0, _, h => h
  | n + 1, s, h => State.oamDmaLast_induct step n _ (step s _ h)

@[simp] theorem State.oamDma_a (s : State) (v : Byte) : (s.oamDma v).a = s.a :=
  State.oamDmaLast_induct (P := fun t => t.a = s.a) (fun t i h => by simp [State.oamDmaByte, h]) 256 s rfl

@[simp] theorem State.oamDma_x (s : State) (v : Byte) : (s.oamDma v).x = s.x :=
  State.oamDmaLast_induct (P := fun t => t.x = s.x) (fun t i h => by simp [State.oamDmaByte, h]) 256 s rfl

@[simp] theorem State.oamDma_y (s : State) (v : Byte) : (s.oamDma v).y = s.y :=
  State.oamDmaLast_induct (P := fun t => t.y = s.y) (fun t i h => by simp [State.oamDmaByte, h]) 256 s rfl

@[simp] theorem State.oamDma_sp (s : State) (v : Byte) : (s.oamDma v).sp = s.sp :=
  State.oamDmaLast_induct (P := fun t => t.sp = s.sp) (fun t i h => by simp [State.oamDmaByte, h]) 256 s rfl

@[simp] theorem State.oamDma_pc (s : State) (v : Byte) : (s.oamDma v).pc = s.pc :=
  State.oamDmaLast_induct (P := fun t => t.pc = s.pc) (fun t i h => by simp [State.oamDmaByte, h]) 256 s rfl

@[simp] theorem State.oamDma_flags (s : State) (v : Byte) : (s.oamDma v).flags = s.flags :=
  State.oamDmaLast_induct (P := fun t => t.flags = s.flags) (fun t i h => by simp [State.oamDmaByte, h]) 256 s rfl

@[simp] theorem State.oamDma_nmiPending (s : State) (v : Byte) : (s.oamDma v).nmiPending = s.nmiPending :=
  State.oamDmaLast_induct (P := fun t => t.nmiPending = s.nmiPending) (fun t i h => by simp [State.oamDmaByte, h]) 256 s rfl

@[simp] theorem State.oamDma_cycles (s : State) (v : Byte) : (s.oamDma v).cycles = s.cycles :=
  State.oamDmaLast_induct (P := fun t => t.cycles = s.cycles) (fun t i h => by simp [State.oamDmaByte, h]) 256 s rfl

@[simp] theorem State.oamDma_halted (s : State) (v : Byte) : (s.oamDma v).halted = s.halted :=
  State.oamDmaLast_induct (P := fun t => t.halted = s.halted) (fun t i h => by simp [State.oamDmaByte, h]) 256 s rfl

@[simp] theorem State.oamDma_ram (s : State) (v : Byte) : (s.oamDma v).ram = s.ram :=
  State.oamDmaLast_induct (P := fun t => t.ram = s.ram) (fun t i h => by simp [State.oamDmaByte, h]) 256 s rfl

@[simp] theorem State.oamDma_cart (s : State) (v : Byte) : (s.oamDma v).cart = s.cart :=
  State.oamDmaLast_induct (P := fun t => t.cart = s.cart) (fun t i h => by simp [State.oamDmaByte, h]) 256 s rfl

@[simp] theorem State.oamDma_params (s : State) (v : Byte) : (s.oamDma v).params = s.params :=
  State.oamDmaLast_induct (P := fun t => t.params = s.params) (fun t i h => by simp [State.oamDmaByte, h]) 256 s rfl

@[simp] theorem State.oamDma_events (s : State) (v : Byte) : (s.oamDma v).events = s.events :=
  State.oamDmaLast_induct (P := fun t => t.events = s.events) (fun t i h => by simp [State.oamDmaByte, h]) 256 s rfl

@[simp] theorem State.ppuWrite_a (s : State) (a : Addr) (v : Byte) : (s.ppuWrite a v).a = s.a := by
  unfold State.ppuWrite
  split <;> simp

@[simp] theorem State.regWrite_a (s : State) (r : PpuReg) (v : Byte) : (s.regWrite r v).a = s.a := by
  cases r <;> simp only [State.regWrite, State.regAction] <;> repeat' split
  all_goals simp

@[simp] theorem State.cpuWrite_a (s : State) (a : Addr) (v : Byte) : (s.cpuWrite a v).a = s.a := by
  unfold State.cpuWrite
  split <;> simp

@[simp] theorem State.ppuWrite_x (s : State) (a : Addr) (v : Byte) : (s.ppuWrite a v).x = s.x := by
  unfold State.ppuWrite
  split <;> simp

@[simp] theorem State.regWrite_x (s : State) (r : PpuReg) (v : Byte) : (s.regWrite r v).x = s.x := by
  cases r <;> simp only [State.regWrite, State.regAction] <;> repeat' split
  all_goals simp

@[simp] theorem State.cpuWrite_x (s : State) (a : Addr) (v : Byte) : (s.cpuWrite a v).x = s.x := by
  unfold State.cpuWrite
  split <;> simp

@[simp] theorem State.ppuWrite_y (s : State) (a : Addr) (v : Byte) : (s.ppuWrite a v).y = s.y := by
  unfold State.ppuWrite
  split <;> simp

@[simp] theorem State.regWrite_y (s : State) (r : PpuReg) (v : Byte) : (s.regWrite r v).y = s.y := by
  cases r <;> simp only [State.regWrite, State.regAction] <;> repeat' split
  all_goals simp

@[simp] theorem State.cpuWrite_y (s : State) (a : Addr) (v : Byte) : (s.cpuWrite a v).y = s.y := by
  unfold State.cpuWrite
  split <;> simp

@[simp] theorem State.ppuWrite_sp (s : State) (a : Addr) (v : Byte) : (s.ppuWrite a v).sp = s.sp := by
  unfold State.ppuWrite
  split <;> simp

@[simp] theorem State.regWrite_sp (s : State) (r : PpuReg) (v : Byte) : (s.regWrite r v).sp = s.sp := by
  cases r <;> simp only [State.regWrite, State.regAction] <;> repeat' split
  all_goals simp

@[simp] theorem State.cpuWrite_sp (s : State) (a : Addr) (v : Byte) : (s.cpuWrite a v).sp = s.sp := by
  unfold State.cpuWrite
  split <;> simp

@[simp] theorem State.ppuWrite_pc (s : State) (a : Addr) (v : Byte) : (s.ppuWrite a v).pc = s.pc := by
  unfold State.ppuWrite
  split <;> simp

@[simp] theorem State.regWrite_pc (s : State) (r : PpuReg) (v : Byte) : (s.regWrite r v).pc = s.pc := by
  cases r <;> simp only [State.regWrite, State.regAction] <;> repeat' split
  all_goals simp

@[simp] theorem State.cpuWrite_pc (s : State) (a : Addr) (v : Byte) : (s.cpuWrite a v).pc = s.pc := by
  unfold State.cpuWrite
  split <;> simp

@[simp] theorem State.ppuWrite_flags (s : State) (a : Addr) (v : Byte) : (s.ppuWrite a v).flags = s.flags := by
  unfold State.ppuWrite
  split <;> simp

@[simp] theorem State.regWrite_flags (s : State) (r : PpuReg) (v : Byte) : (s.regWrite r v).flags = s.flags := by
  cases r <;> simp only [State.regWrite, State.regAction] <;> repeat' split
  all_goals simp

@[simp] theorem State.cpuWrite_flags (s : State) (a : Addr) (v : Byte) : (s.cpuWrite a v).flags = s.flags := by
  unfold State.cpuWrite
  split <;> simp

@[simp] theorem State.ppuWrite_nmiPending (s : State) (a : Addr) (v : Byte) : (s.ppuWrite a v).nmiPending = s.nmiPending := by
  unfold State.ppuWrite
  split <;> simp

@[simp] theorem State.regWrite_nmiPending (s : State) (r : PpuReg) (v : Byte) : (s.regWrite r v).nmiPending = s.nmiPending := by
  cases r <;> simp only [State.regWrite, State.regAction] <;> repeat' split
  all_goals simp

@[simp] theorem State.cpuWrite_nmiPending (s : State) (a : Addr) (v : Byte) : (s.cpuWrite a v).nmiPending = s.nmiPending := by
  unfold State.cpuWrite
  split <;> simp

@[simp] theorem State.ppuWrite_cycles (s : State) (a : Addr) (v : Byte) : (s.ppuWrite a v).cycles = s.cycles := by
  unfold State.ppuWrite
  split <;> simp

@[simp] theorem State.regWrite_cycles (s : State) (r : PpuReg) (v : Byte) : (s.regWrite r v).cycles = s.cycles := by
  cases r <;> simp only [State.regWrite, State.regAction] <;> repeat' split
  all_goals simp

@[simp] theorem State.cpuWrite_cycles (s : State) (a : Addr) (v : Byte) : (s.cpuWrite a v).cycles = s.cycles := by
  unfold State.cpuWrite
  split <;> simp

@[simp] theorem State.ppuWrite_halted (s : State) (a : Addr) (v : Byte) : (s.ppuWrite a v).halted = s.halted := by
  unfold State.ppuWrite
  split <;> simp

@[simp] theorem State.regWrite_halted (s : State) (r : PpuReg) (v : Byte) : (s.regWrite r v).halted = s.halted := by
  cases r <;> simp only [State.regWrite, State.regAction] <;> repeat' split
  all_goals simp

@[simp] theorem State.cpuWrite_halted (s : State) (a : Addr) (v : Byte) : (s.cpuWrite a v).halted = s.halted := by
  unfold State.cpuWrite
  split <;> simp

@[simp] theorem State.ppuWrite_params (s : State) (a : Addr) (v : Byte) : (s.ppuWrite a v).params = s.params := by
  unfold State.ppuWrite
  split <;> simp

@[simp] theorem State.regWrite_params (s : State) (r : PpuReg) (v : Byte) : (s.regWrite r v).params = s.params := by
  cases r <;> simp only [State.regWrite, State.regAction] <;> repeat' split
  all_goals simp

@[simp] theorem State.cpuWrite_params (s : State) (a : Addr) (v : Byte) : (s.cpuWrite a v).params = s.params := by
  unfold State.cpuWrite
  split <;> simp

@[simp] theorem State.ppuWrite_events (s : State) (a : Addr) (v : Byte) : (s.ppuWrite a v).events = s.events := by
  unfold State.ppuWrite
  split <;> simp

@[simp] theorem State.regWrite_events (s : State) (r : PpuReg) (v : Byte) : (s.regWrite r v).events = s.events := by
  cases r <;> simp only [State.regWrite, State.regAction] <;> repeat' split
  all_goals simp

@[simp] theorem State.cpuWrite_events (s : State) (a : Addr) (v : Byte) : (s.cpuWrite a v).events = s.events := by
  unfold State.cpuWrite
  split <;> simp

@[simp] theorem State.ppuWrite_ram (s : State) (a : Addr) (v : Byte) : (s.ppuWrite a v).ram = s.ram := by
  unfold State.ppuWrite
  split <;> simp

@[simp] theorem State.regWrite_ram (s : State) (r : PpuReg) (v : Byte) : (s.regWrite r v).ram = s.ram := by
  cases r <;> simp only [State.regWrite, State.regAction] <;> repeat' split
  all_goals simp

/-- A write changes RAM only where its address is RAM (20_memory R61). -/
theorem State.cpuWrite_ram (s : State) (a : Addr) (v : Byte) :
    (s.cpuWrite a v).ram = match regionOf a with | .ram i => s.ram.write i v | _ => s.ram := by
  unfold State.cpuWrite
  split <;> simp_all

/-- The position of the picture unit is no register: nothing the processor does moves it. -/
@[simp] theorem State.cpuRead_position (s : State) (a : Addr) : (s.cpuRead a).2.ppu.position = s.ppu.position := by
  obtain ⟨vb, w, va, h⟩ := s.cpuRead_ppu a
  rw [h]
  rfl

@[simp] theorem State.ppuWrite_position (s : State) (a : Addr) (v : Byte) : (s.ppuWrite a v).ppu.position = s.ppu.position := by
  unfold State.ppuWrite
  split <;> rfl

@[simp] theorem State.oamDma_position (s : State) (v : Byte) : (s.oamDma v).ppu.position = s.ppu.position := by
  refine State.oamDmaLast_induct (P := fun t => t.ppu.position = s.ppu.position) (fun t i h => ?_) 256 s rfl
  rw [← h, ← State.cpuRead_position t (word v i)]
  rfl

@[simp] theorem State.regWrite_position (s : State) (r : PpuReg) (v : Byte) : (s.regWrite r v).ppu.position = s.ppu.position := by
  cases r <;> simp only [State.regWrite, State.regAction] <;> repeat' split
  case data => exact State.ppuWrite_position _ _ _
  all_goals rfl

@[simp] theorem State.cpuWrite_position (s : State) (a : Addr) (v : Byte) : (s.cpuWrite a v).ppu.position = s.ppu.position := by
  unfold State.cpuWrite
  split <;> simp

/-- Reads of RAM. -/
theorem State.cpuRead_ramCell {s : State} {a : Addr} {i : Nat} (h : regionOf a = .ram i) : s.cpuRead a = (s.ram.read i, s) := by
  unfold State.cpuRead
  rw [h]

/-- Writes of RAM. -/
theorem State.cpuWrite_ramCell {s : State} {a : Addr} {i : Nat} (h : regionOf a = .ram i) (v : Byte) :
    s.cpuWrite a v = s.setRam (s.ram.write i v) := by
  unfold State.cpuWrite
  rw [h]

/-- Reads of the cartridge window. -/
theorem State.cpuRead_cartridge {s : State} {a : Addr} (h : regionOf a = .cartridge) : s.cpuRead a = (s.cart.cpuRead a, s) := by
  unfold State.cpuRead
  rw [h]

end Sys2Proof.Machine
end

