-- ==== Sys2Proof/Laws/BusView.lean ====
section
/-! SUPPORT. What the bus operations see: RAM, the picture unit, the cartridge, the input devices and the count of free values; for a control-register write
also whether the warm-up window has passed. Two states that agree there give the same byte, and the rest of the state is carried along. -/

namespace Sys2Proof.Machine

/-- The bus side of `s` with everything else from `c`. -/
def State.busOver (s c : State) : State :=
  { c with ram := s.ram, ppu := s.ppu, cart := s.cart, input1 := s.input1, input2 := s.input2, drawn := s.drawn }

/-- A read through the bus side of a state. -/
theorem State.busOver_cpuRead (s c : State) (a : Addr) :
    (s.busOver c).cpuRead a = ((s.cpuRead a).1, (s.cpuRead a).2.busOver c) := by
  unfold State.cpuRead
  split <;> try rfl
  next r _ => cases r <;> rfl

theorem State.busOver_oamDmaLast (c : State) (v : Byte) :
    ∀ (n : Nat) (s : State), State.oamDmaLast v n (s.busOver c) = (State.oamDmaLast v n s).busOver c
  | 0, _ => rfl
  | n + 1, s => by
    have h : (s.busOver c).oamDmaByte v (BitVec.ofNat 8 (255 - n)) = (s.oamDmaByte v (BitVec.ofNat 8 (255 - n))).busOver c := by
      unfold State.oamDmaByte
      rw [State.busOver_cpuRead]
      rfl
    unfold State.oamDmaLast
    rw [h, State.busOver_oamDmaLast c v n]

theorem State.busOver_ppuWrite (s c : State) (a : Addr) (v : Byte) : (s.busOver c).ppuWrite a v = (s.ppuWrite a v).busOver c := by
  unfold State.ppuWrite
  have h : ppuCell (s.busOver c).cart a = ppuCell s.cart a := rfl
  rw [h]
  cases ppuCell s.cart a <;> rfl

/-- A write through the bus side of a state. -/
theorem State.busOver_cpuWrite (s c : State) (a : Addr) (v : Byte) (hw : c.inWarmup = s.inWarmup) :
    (s.busOver c).cpuWrite a v = (s.cpuWrite a v).busOver c := by
  unfold State.cpuWrite
  cases regionOf a with
  | ram i => rfl
  | dma => exact State.busOver_oamDmaLast c v 256 s
  | input1 => rfl
  | input2 => rfl
  | audio => rfl
  | reserved => rfl
  | cartridge => rfl
  | ppu r =>
    cases r with
    | control =>
      show (if c.inWarmup = true then _ else _) = State.busOver (if s.inWarmup = true then _ else _) c
      rw [hw, apply_ite (fun t : State => t.busOver c)]
      rfl
    | mask => rfl
    | status => rfl
    | oamAddress => rfl
    | oamData =>
      show (if _ then _ else _) = State.busOver (if _ then _ else _) c
      rw [apply_ite (fun t : State => t.busOver c)]
      rfl
    | scroll =>
      show (if _ then _ else _) = State.busOver (if _ then _ else _) c
      rw [apply_ite (fun t : State => t.busOver c)]
      rfl
    | address =>
      show (if _ then _ else _) = State.busOver (if _ then _ else _) c
      rw [apply_ite (fun t : State => t.busOver c)]
      rfl
    | data =>
      have h := State.busOver_ppuWrite (s.setPpu { s.ppu with lastWrite := v }) c s.ppu.vramAddr v
      show State.setPpu _ _ = State.busOver (State.setPpu _ _) c
      exact (congrArg (fun t => t.setPpu { t.ppu with vramAddr := t.ppu.vramAddr + t.ppu.increment }) h).trans rfl

/-- Every state is its own bus side over itself. -/
theorem State.busOver_self (s : State) : s.busOver s = s := rfl

/-- A read leaves everything outside the bus side alone. -/
theorem State.cpuRead_busOver (s : State) (a : Addr) : (s.cpuRead a).2 = (s.cpuRead a).2.busOver s :=
  congrArg Prod.snd (State.busOver_cpuRead s s a)

/-- A write leaves everything outside the bus side alone. -/
theorem State.cpuWrite_busOver (s : State) (a : Addr) (v : Byte) : s.cpuWrite a v = (s.cpuWrite a v).busOver s :=
  State.busOver_cpuWrite s s a v rfl

/-- The flags are not on the bus side. -/
theorem State.cpuWrite_setFlags (s : State) (f : Flags) (a : Addr) (v : Byte) : (s.setFlags f).cpuWrite a v = (s.cpuWrite a v).setFlags f := by
  have h := State.busOver_cpuWrite s (s.setFlags f) a v rfl
  rw [show s.busOver (s.setFlags f) = s.setFlags f from rfl] at h
  rw [h, State.cpuWrite_busOver s]
  rfl

/-- The flags are seen by no read. -/
theorem State.cpuRead_setFlags (s : State) (f : Flags) (a : Addr) : (s.setFlags f).cpuRead a = ((s.cpuRead a).1, (s.cpuRead a).2.setFlags f) := by
  unfold State.cpuRead
  split <;> try rfl
  next r _ => cases r <;> rfl

end Sys2Proof.Machine
end

