-- ==== Sys2Proof/Laws/Memory.lean ====
section
/-! SUPPORT. The laws of byte arrays: read after write, the canonical form, sizes, and that equal contents are equal lists. -/

namespace Sys2Proof.Machine

namespace Memory

@[simp] theorem read_nil (a : Nat) : read [] a = blank := rfl

theorem read_cons (b : Nat) (u : Byte) (m : Memory) (a : Nat) : read ((b, u) :: m) a = if a = b then u else read m a := rfl

/-- An index below every listed one reads as blank. -/
theorem read_of_lt {k a : Nat} {m : Memory} (h : wfFrom k m = true) (ha : a < k) : read m a = blank := by
  induction m generalizing k with
  | nil => rfl
  | cons c m ih =>
    obtain ⟨b, u⟩ := c
    simp only [wfFrom, Bool.and_eq_true, decide_eq_true_eq] at h
    rw [read_cons, if_neg (by omega)]
    exact ih h.2 (by omega)

/-- The canonical form from a larger bound is one from a smaller bound. -/
theorem wfFrom_mono {k l : Nat} {m : Memory} (h : wfFrom k m = true) (hl : l ≤ k) : wfFrom l m = true := by
  cases m with
  | nil => rfl
  | cons c m =>
    obtain ⟨b, u⟩ := c
    simp only [wfFrom, Bool.and_eq_true, decide_eq_true_eq] at h ⊢
    exact ⟨⟨by omega, h.1.2⟩, h.2⟩

/-- A write keeps the canonical form. -/
theorem wfFrom_write {k a : Nat} {m : Memory} (v : Byte) (h : wfFrom k m = true) (ha : k ≤ a) : wfFrom k (write m a v) = true := by
  induction m generalizing k with
  | nil =>
    unfold write
    split <;> simp_all [wfFrom]
  | cons c m ih =>
    obtain ⟨b, u⟩ := c
    simp only [wfFrom, Bool.and_eq_true, decide_eq_true_eq, bne_iff_ne] at h
    unfold write
    split
    · split
      · simp [wfFrom, h]
      · simp only [wfFrom, Bool.and_eq_true, decide_eq_true_eq, bne_iff_ne]
        exact ⟨⟨ha, by assumption⟩, ⟨by omega, h.1.2⟩, h.2⟩
    · split
      · split
        · exact wfFrom_mono h.2 (by omega)
        · subst a
          simp only [wfFrom, Bool.and_eq_true, decide_eq_true_eq, bne_iff_ne]
          exact ⟨⟨ha, by assumption⟩, h.2⟩
      · simp only [wfFrom, Bool.and_eq_true, decide_eq_true_eq, bne_iff_ne]
        exact ⟨h.1, ih h.2 (by omega)⟩

theorem wf_write {m : Memory} (a : Nat) (v : Byte) (h : wf m = true) : wf (write m a v) = true := wfFrom_write v h (Nat.zero_le a)

/-- Reading back what was written. -/
theorem read_write_same {k : Nat} {m : Memory} (a : Nat) (v : Byte) (h : wfFrom k m = true) : read (write m a v) a = v := by
  induction m generalizing k with
  | nil =>
    unfold write
    split <;> simp_all [read]
  | cons c m ih =>
    obtain ⟨b, u⟩ := c
    simp only [wfFrom, Bool.and_eq_true, decide_eq_true_eq] at h
    unfold write
    split
    · split
      · rw [read_cons, if_neg (by omega), read_of_lt h.2 (by omega)]
        exact Eq.symm ‹_›
      · simp [read_cons]
    · split
      · subst a
        split
        · rw [read_of_lt h.2 (by omega)]
          exact Eq.symm ‹_›
        · simp [read_cons]
      · rw [read_cons, if_neg (by assumption)]
        exact ih h.2

/-- A write leaves every other place alone, canonical form or not. -/
theorem read_write_ne (m : Memory) {a b : Nat} (v : Byte) (h : b ≠ a) (hm : wf m = true) : read (write m a v) b = read m b := by
  unfold wf at hm
  generalize 0 = k at hm
  induction m generalizing k with
  | nil =>
    unfold write
    split <;> simp_all [read]
  | cons c m ih =>
    obtain ⟨e, u⟩ := c
    simp only [wfFrom, Bool.and_eq_true, decide_eq_true_eq] at hm
    unfold write
    split
    · split
      · rfl
      · simp [read_cons, h]
    · split
      · subst a
        split <;> simp [read_cons, h]
      · rw [read_cons, read_cons, ih _ hm.2]

theorem read_write (m : Memory) (a b : Nat) (v : Byte) (hm : wf m = true) :
    read (write m a v) b = if b = a then v else read m b := by
  split
  · subst b; exact read_write_same a v hm
  · exact read_write_ne m v (by assumption) hm

theorem below_write {size a : Nat} {m : Memory} (v : Byte) (h : below size m = true) (ha : a < size) :
    below size (write m a v) = true := by
  induction m with
  | nil =>
    unfold write
    split <;> simp [below, ha]
  | cons c m ih =>
    obtain ⟨b, u⟩ := c
    simp only [below, List.all_cons, Bool.and_eq_true, decide_eq_true_eq] at h ih
    unfold write
    split
    · split <;> simp [below, h, ha]
    · split
      · split <;> simp [below, h, ha]
      · simp only [below, List.all_cons, Bool.and_eq_true, decide_eq_true_eq]
        exact ⟨h.1, ih h.2⟩

/-- A write inside an array keeps its form. -/
theorem fits_write {size a : Nat} {m : Memory} (v : Byte) (h : fits size m = true) (ha : a < size) :
    fits size (write m a v) = true := by
  simp only [fits, Bool.and_eq_true] at h ⊢
  exact ⟨wf_write a v h.1, below_write v h.2 ha⟩

theorem fits_wf {size : Nat} {m : Memory} (h : fits size m = true) : wf m = true := by
  simp only [fits, Bool.and_eq_true] at h
  exact h.1

theorem wfFrom_ofBytesFrom (k : Nat) (bs : List Byte) : wfFrom k (ofBytesFrom k bs) = true := by
  induction bs generalizing k with
  | nil => rfl
  | cons b bs ih =>
    unfold ofBytesFrom
    split
    · exact wfFrom_mono (ih (k + 1)) (by omega)
    · simp_all [wfFrom]

theorem below_ofBytesFrom (k : Nat) (bs : List Byte) : below (k + bs.length) (ofBytesFrom k bs) = true := by
  induction bs generalizing k with
  | nil => rfl
  | cons b bs ih =>
    have := ih (k + 1)
    rw [show k + 1 + bs.length = k + (b :: bs).length by simp; omega] at this
    unfold ofBytesFrom
    split
    · exact this
    · simp only [below, List.all_cons, Bool.and_eq_true, decide_eq_true_eq]
      exact ⟨by simp, this⟩

theorem below_mono {k l : Nat} {m : Memory} (h : below k m = true) (hl : k ≤ l) : below l m = true := by
  simp only [below, List.all_eq_true, decide_eq_true_eq] at h ⊢
  intro c hc
  have := h c hc
  omega

theorem fits_ofBytes {n : Nat} (bs : List Byte) (h : bs.length ≤ n) : fits n (ofBytes bs) = true := by
  simp only [fits, Bool.and_eq_true]
  have hb := below_ofBytesFrom 0 bs
  rw [Nat.zero_add] at hb
  exact ⟨wfFrom_ofBytesFrom 0 bs, below_mono hb h⟩

theorem read_ofBytesFrom (k : Nat) (bs : List Byte) (i : Nat) : read (ofBytesFrom k bs) (k + i) = bs.getD i blank := by
  induction bs generalizing k i with
  | nil => rfl
  | cons b bs ih =>
    have hlow : read (ofBytesFrom (k + 1) bs) k = blank := read_of_lt (wfFrom_ofBytesFrom (k + 1) bs) (by omega)
    unfold ofBytesFrom
    cases i with
    | zero =>
      split
      · simp_all
      · simp [read_cons]
    | succ i =>
      have := ih (k + 1) i
      rw [show k + 1 + i = k + (i + 1) by omega] at this
      split
      · simpa using this
      · rw [read_cons, if_neg (by omega)]
        simpa using this

/-- The byte at an index of an array made of a list of bytes. -/
theorem read_ofBytes (bs : List Byte) (i : Nat) : read (ofBytes bs) i = bs.getD i blank := by
  have := read_ofBytesFrom 0 bs i
  rwa [Nat.zero_add] at this

/-- Canonical arrays with the same bytes are the same list. -/
theorem ext_of_wfFrom {k : Nat} {m m' : Memory} (h : wfFrom k m = true) (h' : wfFrom k m' = true) (heq : ∀ a, read m a = read m' a) :
    m = m' := by
  induction m generalizing k m' with
  | nil =>
    cases m' with
    | nil => rfl
    | cons c m' =>
      obtain ⟨b, u⟩ := c
      simp only [wfFrom, Bool.and_eq_true, decide_eq_true_eq, bne_iff_ne] at h'
      have := heq b
      simp only [read_nil, read_cons, if_true] at this
      exact absurd this.symm h'.1.2
  | cons c m ih =>
    obtain ⟨b, u⟩ := c
    simp only [wfFrom, Bool.and_eq_true, decide_eq_true_eq, bne_iff_ne] at h
    cases m' with
    | nil =>
      have := heq b
      simp only [read_nil, read_cons, if_true] at this
      exact absurd this h.1.2
    | cons c' m' =>
      obtain ⟨b', u'⟩ := c'
      simp only [wfFrom, Bool.and_eq_true, decide_eq_true_eq, bne_iff_ne] at h'
      have hb : b = b' := by
        rcases Nat.lt_trichotomy b b' with hlt | heq' | hgt
        · have := heq b
          rw [read_cons, read_cons, if_pos rfl, if_neg (by omega), read_of_lt h'.2 (by omega)] at this
          exact absurd this h.1.2
        · exact heq'
        · have := heq b'
          rw [read_cons, read_cons, if_pos rfl, if_neg (by omega), read_of_lt h.2 (by omega)] at this
          exact absurd this.symm h'.1.2
      subst hb
      have hu : u = u' := by simpa [read_cons] using heq b
      subst hu
      congr 1
      refine ih h.2 h'.2 fun a => ?_
      by_cases ha : a ≤ b
      · rw [read_of_lt h.2 (by omega), read_of_lt h'.2 (by omega)]
      · have := heq a
        rwa [read_cons, read_cons, if_neg (by omega), if_neg (by omega)] at this

theorem ext {m m' : Memory} (h : wf m = true) (h' : wf m' = true) (heq : ∀ a, read m a = read m' a) : m = m' :=
  ext_of_wfFrom h h' heq

end Memory

end Sys2Proof.Machine
end

