-- ==== Sys2Proof/Laws/Cart.lean ====
section
/-! SUPPORT. What the two sides of a cartridge can do to it: a processor write reaches registers, the mirroring mode or cartridge RAM; a picture-unit write
reaches graphics RAM. Neither changes the image or the variant. -/

namespace Sys2Proof.Machine

@[simp] theorem Cart.selectMirroring_image (c : Cart) (m : Mirroring) : (c.selectMirroring m).image = c.image := by
  unfold Cart.selectMirroring; split <;> rfl
@[simp] theorem Cart.selectMirroring_regs (c : Cart) (m : Mirroring) : (c.selectMirroring m).regs = c.regs := by
  unfold Cart.selectMirroring; split <;> rfl
@[simp] theorem Cart.selectMirroring_chr (c : Cart) (m : Mirroring) : (c.selectMirroring m).chr = c.chr := by
  unfold Cart.selectMirroring; split <;> rfl
@[simp] theorem Cart.selectMirroring_prgRam (c : Cart) (m : Mirroring) : (c.selectMirroring m).prgRam = c.prgRam := by
  unfold Cart.selectMirroring; split <;> rfl

/-- The mode a mapper selects (21 R106). -/
theorem Cart.selectMirroring_mirroring (c : Cart) (m : Mirroring) :
    (c.selectMirroring m).mirroring = if c.image.mirroring = .fourScreen then c.mirroring else m := by
  unfold Cart.selectMirroring; split <;> rfl

/-- The registers a register write leaves: of the same variant, within their bounds, with the interrupt counter untouched. -/
structure MapperRegs.Follows (r r' : MapperRegs) : Prop where
  hasId : ∀ k, r'.hasId k = r.hasId k
  inBounds : r.inBounds = true → r'.inBounds = true
  counter : ∀ d, r = .dual d → ∃ d', r' = .dual d' ∧ d'.irqCounter = d.irqCounter

theorem MapperRegs.Follows.refl (r : MapperRegs) : r.Follows r := ⟨fun _ => rfl, id, fun d h => ⟨d, h, rfl⟩⟩

theorem MapperRegs.follows_serial {r r' : SerialRegs} (h : r.shiftCount ≤ 4 → r'.shiftCount ≤ 4) :
    (MapperRegs.serial r).Follows (.serial r') :=
  ⟨fun _ => rfl, fun hb => decide_eq_true (h (of_decide_eq_true hb)), fun d hd => by cases hd⟩

theorem MapperRegs.follows_dual {r r' : DualRegs} (hb : (MapperRegs.dual r).inBounds = true → (MapperRegs.dual r').inBounds = true)
    (hc : r'.irqCounter = r.irqCounter) : (MapperRegs.dual r).Follows (.dual r') :=
  ⟨fun _ => rfl, hb, fun d hd => by cases hd; exact ⟨r', rfl, hc⟩⟩

/-- A clamped value is within the bounds of its slot (21 R121). -/
theorem dualClamp_bounds (slot : BitVec 3) (v : Byte) :
    (slot.toNat < 2 → (dualClamp slot v).getLsbD 0 = false) ∧ (6 ≤ slot.toNat → (dualClamp slot v).toNat < 64) := by
  unfold dualClamp
  constructor
  · intro h
    rw [if_pos h]
    clear h
    revert v
    decide
  · intro h
    rw [if_neg (by omega), if_neg (by omega)]
    clear h
    revert v
    decide

theorem MapperRegs.setBank_inBounds (r : DualRegs) (slot : BitVec 3) (v : Byte) (h : (MapperRegs.dual r).inBounds = true) :
    (MapperRegs.dual { r with bankReg := r.bankReg.set slot.toNat (dualClamp slot v) slot.isLt }).inBounds = true := by
  obtain ⟨h0, h6⟩ := dualClamp_bounds slot v
  simp only [MapperRegs.inBounds, Bool.and_eq_true, Bool.not_eq_true', decide_eq_true_eq, Vector.getElem_set] at h ⊢
  obtain ⟨⟨⟨b0, b1⟩, b6⟩, b7⟩ := h
  refine ⟨⟨⟨?_, ?_⟩, ?_⟩, ?_⟩
  · split
    · exact h0 (by omega)
    · exact b0
  · split
    · exact h0 (by omega)
    · exact b1
  · split
    · exact h6 (by omega)
    · exact b6
  · split
    · exact h6 (by omega)
    · exact b7

/-- What a processor write can do to a cartridge, whatever its variant. -/
structure Cart.Writes (c c' : Cart) (a : Addr) : Prop where
  image : c'.image = c.image
  chr : c'.chr = c.chr
  regs : c.regs.Follows c'.regs
  mirroring : c'.mirroring = c.mirroring ∨ (c.image.mirroring ≠ .fourScreen ∧ c'.mirroring ≠ .fourScreen)
  rom : 0x8000 ≤ a.toNat → c'.prgRam = c.prgRam
  low : a.toNat < 0x8000 → c'.regs = c.regs ∧ c'.mirroring = c.mirroring
  prgRam : c.prgRam.fits 8192 = true → c'.prgRam.fits 8192 = true

theorem Cart.Writes.refl (c : Cart) (a : Addr) : c.Writes c a := ⟨rfl, rfl, .refl _, .inl rfl, fun _ => rfl, fun _ => ⟨rfl, rfl⟩, id⟩

theorem Cart.writes_regs {c : Cart} {a : Addr} {r : MapperRegs} (ha : 0x8000 ≤ a.toNat) (h : c.regs.Follows r) : c.Writes { c with regs := r } a :=
  ⟨rfl, rfl, h, .inl rfl, fun _ => rfl, fun hl => by omega, id⟩

theorem Cart.writes_select {c : Cart} {a : Addr} {r : MapperRegs} (ha : 0x8000 ≤ a.toNat) (h : c.regs.Follows r) (m : Mirroring)
    (hm : m ≠ .fourScreen) : c.Writes (({ c with regs := r } : Cart).selectMirroring m) a := by
  refine ⟨by simp, by simp, by simpa using h, ?_, by simp, fun hl => by omega, by simp⟩
  rw [Cart.selectMirroring_mirroring]
  split
  · exact .inl rfl
  · exact .inr ⟨by assumption, hm⟩

theorem serialMirroring_ne (control : BitVec 5) : serialMirroring control ≠ .fourScreen := by
  revert control
  decide

theorem Cart.serialWrite_writes {c : Cart} {r : SerialRegs} (hr : c.regs = .serial r) {a : Addr} (ha : 0x8000 ≤ a.toNat) (v : Byte) :
    c.Writes (c.serialWrite r a v) a := by
  unfold Cart.serialWrite
  have f {r' : SerialRegs} (h : r.shiftCount ≤ 4 → r'.shiftCount ≤ 4) : c.regs.Follows (.serial r') := by
    rw [hr]
    exact MapperRegs.follows_serial h
  split
  · exact Cart.writes_regs ha (f fun _ => by simp)
  · dsimp only
    split
    · unfold Cart.commit
      split
      · exact Cart.writes_select ha (f fun _ => by simp) _ (serialMirroring_ne _)
      · exact Cart.writes_regs ha (f fun _ => by simp)
      · exact Cart.writes_regs ha (f fun _ => by simp)
      · exact Cart.writes_regs ha (f fun _ => by simp)
    · exact Cart.writes_regs ha (f fun _ => by dsimp only; omega)

theorem Cart.dualWrite_writes {c : Cart} {r : DualRegs} (hr : c.regs = .dual r) {a : Addr} (ha : 0x8000 ≤ a.toNat) (v : Byte) :
    c.Writes (c.dualWrite r a v) a := by
  have f {r' : DualRegs} (hb : (MapperRegs.dual r).inBounds = true → (MapperRegs.dual r').inBounds = true)
      (hc : r'.irqCounter = r.irqCounter) : c.regs.Follows (.dual r') := by
    rw [hr]
    exact MapperRegs.follows_dual hb hc
  unfold Cart.dualWrite
  split
  · exact Cart.writes_regs ha (f id rfl)
  · exact Cart.writes_regs ha (f (MapperRegs.setBank_inBounds r _ v) rfl)
  · refine Cart.writes_select ha (f (r' := { r with mirrorReg := v.getLsbD 0 }) id rfl) _ ?_
    split <;> simp
  · exact Cart.writes_regs ha (f id rfl)
  · exact Cart.writes_regs ha (f id rfl)
  · exact Cart.writes_regs ha (f id rfl)
  · exact Cart.writes_regs ha (f id rfl)
  · exact .refl c a

/-- A processor write to any cartridge. -/
theorem Cart.cpuWrite_writes (c : Cart) (a : Addr) (v : Byte) : c.Writes (c.cpuWrite a v) a := by
  unfold Cart.cpuWrite
  split
  · rename_i ha
    cases hr : c.regs with
    | fixedBank => exact .refl c a
    | bankSelect b =>
      refine Cart.writes_regs ha ?_
      rw [hr]
      exact ⟨fun _ => rfl, fun _ => rfl, fun d hd => by cases hd⟩
    | serial r => exact Cart.serialWrite_writes hr ha v
    | dual r => exact Cart.dualWrite_writes hr ha v
  · rename_i ha
    split
    · refine ⟨rfl, rfl, .refl _, .inl rfl, fun h => absurd h ha, fun _ => ⟨rfl, rfl⟩, fun h => Memory.fits_write v h ?_⟩
      omega
    · exact .refl c a

/-- A write below the mapper's registers is seen at its own address only. -/
theorem Cart.cpuRead_cpuWrite_ne {c : Cart} {a b : Addr} (v : Byte) (ha : a.toNat < 0x8000) (hb : b ≠ a) (hw : c.prgRam.wf = true) :
    (c.cpuWrite a v).cpuRead b = c.cpuRead b := by
  unfold Cart.cpuWrite
  rw [if_neg (by omega)]
  split
  · rename_i h
    have offset (m : Memory) : ({ c with prgRam := m } : Cart).prgOffset b = c.prgOffset b := rfl
    have has (m : Memory) : ({ c with prgRam := m } : Cart).hasPrgRam = c.hasPrgRam := rfl
    unfold Cart.cpuRead
    rw [offset, has]
    split
    · rfl
    · split
      · rename_i h'
        simp only [Bool.and_eq_true, decide_eq_true_eq] at h h'
        refine Memory.read_write_ne _ _ ?_ hw
        intro e
        exact hb (BitVec.eq_of_toNat_eq (by omega))
      · rfl
  · rfl

/-- Such a write keeps a cartridge good. -/
theorem Cart.Writes.good {c c' : Cart} {a : Addr} (w : c.Writes c' a) (h : c.Good) : c'.Good := by
  obtain ⟨h1, h2, h3, h4, h5, h6, h7⟩ := h
  refine ⟨w.image ▸ h1, by rw [w.image]; exact h2, by rw [w.image, w.chr]; exact h3, w.prgRam h4, ?_, ?_, w.regs.inBounds h7⟩
  · rw [w.image]
    rcases w.mirroring with e | ⟨e1, e2⟩
    · rw [e]; exact h5
    · exact ⟨fun h => absurd h e2, fun h => absurd h e1⟩
  · rw [w.image, w.regs.hasId]; exact h6

theorem bankOffset_lt {len : Nat} (size index a : Nat) (h : 0 < len) : bankOffset len size index a < len := Nat.mod_lt _ h

theorem Image.chrSize_pos (img : Image) : 0 < img.chrSize := by
  unfold Image.chrSize
  split <;> omega

/-- A pattern-table address falls within the graphics bytes. -/
theorem Cart.chrOffset_lt (c : Cart) (a : Nat) : c.chrOffset a < c.image.chrSize := by
  have h := c.image.chrSize_pos
  unfold Cart.chrOffset
  dsimp only
  split
  · exact Nat.mod_lt _ h
  · exact bankOffset_lt _ _ _ h
  · unfold serialChrOffset
    repeat' split
    all_goals exact bankOffset_lt _ _ _ h
  · exact bankOffset_lt _ _ _ h

@[simp] theorem Cart.ppuWrite_image (c : Cart) (a : Nat) (v : Byte) : (c.ppuWrite a v).image = c.image := by
  unfold Cart.ppuWrite; split <;> rfl
@[simp] theorem Cart.ppuWrite_regs (c : Cart) (a : Nat) (v : Byte) : (c.ppuWrite a v).regs = c.regs := by
  unfold Cart.ppuWrite; split <;> rfl
@[simp] theorem Cart.ppuWrite_mirroring (c : Cart) (a : Nat) (v : Byte) : (c.ppuWrite a v).mirroring = c.mirroring := by
  unfold Cart.ppuWrite; split <;> rfl
@[simp] theorem Cart.ppuWrite_prgRam (c : Cart) (a : Nat) (v : Byte) : (c.ppuWrite a v).prgRam = c.prgRam := by
  unfold Cart.ppuWrite; split <;> rfl

/-- Graphics ROM is never written (21 R107). -/
theorem Cart.ppuWrite_chr (c : Cart) (a : Nat) (v : Byte) :
    (c.ppuWrite a v).chr = if c.image.chrIsRam then c.chr.write (c.chrOffset a) v else c.chr := by
  unfold Cart.ppuWrite; split <;> rfl

/-- A picture-unit write keeps a cartridge good. -/
theorem Cart.ppuWrite_good {c : Cart} (a : Nat) (v : Byte) (h : c.Good) : (c.ppuWrite a v).Good := by
  obtain ⟨h1, h2, h3, h4, h5, h6, h7⟩ := h
  refine ⟨by simpa using h1, by simpa using h2, ?_, by simpa using h4, by simpa using h5, by simpa using h6, by simpa using h7⟩
  rw [Cart.ppuWrite_chr, Cart.ppuWrite_image]
  split
  · exact Memory.fits_write v h3 (c.chrOffset_lt a)
  · exact h3

/-- A nametable address falls within nametable RAM (21 R104, R105). -/
theorem Cart.mirror_lt {c : Cart} {a : Nat} (h : 0x2000 ≤ a) (h' : a < 0x3000) (hm : c.mirroring = .fourScreen → c.image.mirroring = .fourScreen) :
    c.mirror a < c.image.nametableSize := by
  unfold Cart.mirror Image.nametableSize
  have low : c.mirroring ≠ .fourScreen → mirrorBank c.mirroring ((a - 0x2000) / 1024) ≤ 1 := by
    intro hn
    unfold mirrorBank
    split <;> first | omega | contradiction
  by_cases hc : c.mirroring = .fourScreen
  · rw [if_pos (hm hc), hc]
    simp only [mirrorBank]
    omega
  · have := low hc
    split <;> omega

end Sys2Proof.Machine
end

