-- ==== Sys2Proof/Laws/Decode.lean ====
section
/-! SUPPORT. The decoder by the shape of an opcode, and what the shape of each kind of opcode is. -/

namespace Sys2Proof

open Machine (word lo hi)

theorem decode_of_one {nops : List (Byte × NopEntry)} {op : Byte} {i : Instr} (h : shapeOf nops op = some (.one i)) (rest : List Byte) :
    decode nops (op :: rest) = .ok (i, rest) := by
  unfold decode
  simp only [h]

theorem decode_of_two {nops : List (Byte × NopEntry)} {op : Byte} {f : Byte → Instr} (h : shapeOf nops op = some (.two f)) (b : Byte)
    (rest : List Byte) : decode nops (op :: b :: rest) = .ok (f b, rest) := by
  unfold decode
  simp only [h]

theorem decode_of_three {nops : List (Byte × NopEntry)} {op : Byte} {f : Addr → Instr} (h : shapeOf nops op = some (.three f)) (addr : Addr)
    (rest : List Byte) : decode nops (op :: lo addr :: hi addr :: rest) = .ok (f addr, rest) := by
  unfold decode
  simp only [h, Machine.word_hi_lo]

theorem decode_of_unread {nops : List (Byte × NopEntry)} {op : Byte} {n : Nat} {i : Instr} (h : shapeOf nops op = some (.unread n i))
    (rest : List Byte) (hn : n ≤ rest.length) : decode nops (op :: rest) = .ok (i, rest.drop n) := by
  unfold decode
  simp only [h, if_pos hn]

/-- A documented opcode has its documented shape under every table (30_encoding R159 (1)). -/
theorem shapeOf_of_documented {op : Byte} {sh : Shape} (nops : List (Byte × NopEntry)) (h : documentedShape op = some sh) :
    shapeOf nops op = some sh := by
  unfold shapeOf
  rw [h]

/-- An opcode that has the entry of the default table decodes to the default table's row (45 R301). -/
theorem shapeOf_of_default {nops : List (Byte × NopEntry)} {op : Byte} {e : NopEntry} {sh : Shape} (hd : documentedShape op = none)
    (hn : nops.lookup op = some e) (he : defaultNops.lookup op = some e) (hs : defaultNopShapes.lookup op = some sh) :
    shapeOf nops op = some sh := by
  simp [shapeOf, hd, hn, nopShape, he, hs]

/-- What the general no-operation's well-formedness says (45 R300). -/
theorem nopStarOther_wf {nops : List (Byte × NopEntry)} {op : Byte} {e : NopEntry} :
    (Instr.nopStarOther op e).wf nops = true ↔
      (((documentedShape op = none ∧ (1 ≤ e.length ∧ e.length ≤ 3) ∧ (e.readsOperand = false ∨ 2 ≤ e.length)) ∧ nops.lookup op = some e)
        ∧ ¬(defaultNops.lookup op == some e) = true) := by
  have h : (Instr.nopStarOther op e).wf nops = (nopMemberWf op e && (nops.lookup op == some e) && !(defaultNops.lookup op == some e)) := rfl
  rw [h, nopMemberWf, NopEntry.wf]
  simp [and_assoc]

/-- An opcode with an entry of its own, whose operand bytes are not read (45 R302). -/
theorem nopShape_unread {op : Byte} {e : NopEntry} (he : ¬(defaultNops.lookup op == some e) = true) (hr : e.readsOperand = false) :
    nopShape op e = .unread (e.length - 1) (.nopStarOther op e) := by
  simp only [Bool.not_eq_true] at he
  simp only [nopShape, he, hr]

theorem nopShape_two {op : Byte} {e : NopEntry} (he : ¬(defaultNops.lookup op == some e) = true) (hr : e.readsOperand = true)
    (hl : e.length = 2) : nopShape op e = .two fun _ => .nopStarOther op e := by
  simp only [Bool.not_eq_true] at he
  simp only [nopShape, he, hr, hl]

theorem nopShape_three {op : Byte} {e : NopEntry} (he : ¬(defaultNops.lookup op == some e) = true) (hr : e.readsOperand = true)
    (hl : e.length = 3) : nopShape op e = .three fun _ => .nopStarOther op e := by
  simp only [Bool.not_eq_true] at he
  simp only [nopShape, he, hr, hl]

/-! The opcode map read the other way: each cell's instruction has that opcode, the operand bytes the shape reads, and is well formed under every table. -/

/-- An instruction of the map at an opcode with these operand bytes. -/
def Instr.IsAt (i : Instr) (op : Byte) (operand : List Byte) : Prop :=
  opcode i = op ∧ operandBytes i = operand ∧ ∀ nops, i.wf nops = true

/-- A cell of the map is what its opcode says. -/
def cellSound (op : Byte) : Option Shape → Prop
  | none => True
  | some (.one i) => i.IsAt op []
  | some (.two f) => ∀ b, (f b).IsAt op [b]
  | some (.three f) => ∀ addr, (f addr).IsAt op [lo addr, hi addr]
  | some (.unread _ _) => False

/-- The cells from opcode `k` on. -/
def rowSound : Nat → List (Option Shape) → Prop
  | _, [] => True
  | k, c :: cs => cellSound (BitVec.ofNat 8 k) c ∧ rowSound (k + 1) cs

theorem rowSound_0 : rowSound 0x00 opcodeRow0 := by
  simp only [opcodeRow0, rowSound, cellSound, Instr.IsAt]
  repeat' first | constructor | intro
theorem rowSound_1 : rowSound 0x10 opcodeRow1 := by
  simp only [opcodeRow1, rowSound, cellSound, Instr.IsAt]
  repeat' first | constructor | intro
theorem rowSound_2 : rowSound 0x20 opcodeRow2 := by
  simp only [opcodeRow2, rowSound, cellSound, Instr.IsAt]
  repeat' first | constructor | intro
theorem rowSound_3 : rowSound 0x30 opcodeRow3 := by
  simp only [opcodeRow3, rowSound, cellSound, Instr.IsAt]
  repeat' first | constructor | intro
theorem rowSound_4 : rowSound 0x40 opcodeRow4 := by
  simp only [opcodeRow4, rowSound, cellSound, Instr.IsAt]
  repeat' first | constructor | intro
theorem rowSound_5 : rowSound 0x50 opcodeRow5 := by
  simp only [opcodeRow5, rowSound, cellSound, Instr.IsAt]
  repeat' first | constructor | intro
theorem rowSound_6 : rowSound 0x60 opcodeRow6 := by
  simp only [opcodeRow6, rowSound, cellSound, Instr.IsAt]
  repeat' first | constructor | intro
theorem rowSound_7 : rowSound 0x70 opcodeRow7 := by
  simp only [opcodeRow7, rowSound, cellSound, Instr.IsAt]
  repeat' first | constructor | intro
theorem rowSound_8 : rowSound 0x80 opcodeRow8 := by
  simp only [opcodeRow8, rowSound, cellSound, Instr.IsAt]
  repeat' first | constructor | intro
theorem rowSound_9 : rowSound 0x90 opcodeRow9 := by
  simp only [opcodeRow9, rowSound, cellSound, Instr.IsAt]
  repeat' first | constructor | intro
theorem rowSound_A : rowSound 0xA0 opcodeRowA := by
  simp only [opcodeRowA, rowSound, cellSound, Instr.IsAt]
  repeat' first | constructor | intro
theorem rowSound_B : rowSound 0xB0 opcodeRowB := by
  simp only [opcodeRowB, rowSound, cellSound, Instr.IsAt]
  repeat' first | constructor | intro
theorem rowSound_C : rowSound 0xC0 opcodeRowC := by
  simp only [opcodeRowC, rowSound, cellSound, Instr.IsAt]
  repeat' first | constructor | intro
theorem rowSound_D : rowSound 0xD0 opcodeRowD := by
  simp only [opcodeRowD, rowSound, cellSound, Instr.IsAt]
  repeat' first | constructor | intro
theorem rowSound_E : rowSound 0xE0 opcodeRowE := by
  simp only [opcodeRowE, rowSound, cellSound, Instr.IsAt]
  repeat' first | constructor | intro
theorem rowSound_F : rowSound 0xF0 opcodeRowF := by
  simp only [opcodeRowF, rowSound, cellSound, Instr.IsAt]
  repeat' first | constructor | intro

theorem rowSound_get : ∀ (cs : List (Option Shape)) (k n : Nat), rowSound k cs → cellSound (BitVec.ofNat 8 (k + n)) (cs.getD n none)
  | [], _, _, _ => by simp [cellSound]
  | _ :: _, _, 0, h => h.1
  | _ :: cs, k, n + 1, h => by
    have := rowSound_get cs (k + 1) n h.2
    rwa [show k + 1 + n = k + (n + 1) by omega] at this

/-- Every cell of the map is what its opcode says. -/
theorem documentedShape_sound (op : Byte) : cellSound op (documentedShape op) := by
  have row (r : Nat) (hr : r < 16) : rowSound (16 * r) (opcodeMap.getD r []) := by
    interval_cases r
    exacts [rowSound_0, rowSound_1, rowSound_2, rowSound_3, rowSound_4, rowSound_5, rowSound_6, rowSound_7, rowSound_8, rowSound_9, rowSound_A,
      rowSound_B, rowSound_C, rowSound_D, rowSound_E, rowSound_F]
  have h := op.isLt
  have := rowSound_get _ _ (op.toNat % 16) (row (op.toNat / 16) (by omega))
  rwa [Nat.div_add_mod, BitVec.ofNat_toNat, BitVec.setWidth_eq] at this

/-! The members of UNDOC_NOP_TABLE. -/

theorem lookup_mem {nops : List (Byte × NopEntry)} {op : Byte} {e : NopEntry} (h : nops.lookup op = some e) : (op, e) ∈ nops := by
  induction nops with
  | nil => cases h
  | cons p nops ih =>
    rw [List.lookup_cons] at h
    split at h
    · rename_i heq
      cases h
      rw [eq_of_beq heq]
      exact List.mem_cons_self
    · exact List.mem_cons_of_mem _ (ih h)

/-- An instruction of the machine at an opcode, with these operand bytes where it keeps them. -/
structure Instr.FitsAt (nops : List (Byte × NopEntry)) (i : Instr) (op : Byte) (operand : List Byte) : Prop where
  opcode : opcode i = op
  length : (operandBytes i).length = operand.length
  wf : i.wf nops = true
  keeps : operandBytes i = operand ∨ ∃ e, i = .nopStarOther op e

/-- What the shape of an opcode gives, whatever the operand bytes. -/
def Shape.Sound (nops : List (Byte × NopEntry)) (op : Byte) : Shape → Prop
  | .one i => i.FitsAt nops op []
  | .two f => ∀ b, (f b).FitsAt nops op [b]
  | .three f => ∀ addr, (f addr).FitsAt nops op [lo addr, hi addr]
  | .unread n i => ∀ bs : List Byte, bs.length = n → i.FitsAt nops op bs

/-- A member of the table that has the default entry is read as the row of the default table, whatever the other members are. -/
theorem nopShape_default {nops : List (Byte × NopEntry)} : ∀ row ∈ defaultNops, nops.lookup row.1 = defaultNops.lookup row.1 →
    (nopShape row.1 row.2).Sound nops row.1 := by
  simp only [defaultNops, List.forall_mem_cons]
  refine ⟨?_, ?_, ?_, ?_, ?_, ?_, fun hl _ => ?_, fun hl _ => ?_, fun hl _ => ?_, fun hl _ => ?_, fun _ hr => absurd hr List.not_mem_nil⟩
  iterate 6 exact fun hl => ⟨rfl, rfl, beq_iff_eq.mpr hl, .inl rfl⟩
  all_goals exact ⟨rfl, rfl, beq_iff_eq.mpr hl, .inl rfl⟩

theorem nopShape_sound {nops : List (Byte × NopEntry)} {op : Byte} {e : NopEntry} (hd : documentedShape op = none) (hn : nopTableWf nops = true)
    (h : nops.lookup op = some e) : (nopShape op e).Sound nops op := by
  by_cases he : (defaultNops.lookup op == some e) = true
  · exact nopShape_default _ (lookup_mem (eq_of_beq he)) (h.trans (eq_of_beq he).symm)
  · have hw : nopMemberWf op e = true := List.all_eq_true.mp hn _ (lookup_mem h)
    simp only [nopMemberWf, NopEntry.wf, hd, Option.isNone_none, Bool.true_and, Bool.and_eq_true, decide_eq_true_eq, Bool.or_eq_true,
      Bool.not_eq_true'] at hw
    have hwf : (Instr.nopStarOther op e).wf nops = true := nopStarOther_wf.mpr ⟨⟨⟨hd, hw⟩, h⟩, he⟩
    have fits (bs : List Byte) (hl : e.length - 1 = bs.length) : (Instr.nopStarOther op e).FitsAt nops op bs :=
      ⟨rfl, by simpa [operandBytes] using hl, hwf, .inr ⟨e, rfl⟩⟩
    cases hr : e.readsOperand with
    | false =>
      rw [nopShape_unread he hr]
      exact fun bs hl => fits bs hl.symm
    | true =>
      have h23 : e.length = 2 ∨ e.length = 3 := by
        rw [hr] at hw
        simp at hw
        omega
      rcases h23 with hl | hl
      · rw [nopShape_two he hr hl]
        exact fun b => fits [b] (by rw [hl]; rfl)
      · rw [nopShape_three he hr hl]
        exact fun addr => fits [lo addr, hi addr] (by rw [hl]; rfl)

/-- What the decoder's map gives for an opcode, documented or not. -/
theorem shapeOf_sound {nops : List (Byte × NopEntry)} {op : Byte} {sh : Shape} (hn : nopTableWf nops = true) (h : shapeOf nops op = some sh) :
    sh.Sound nops op := by
  cases hd : documentedShape op with
  | some sh' =>
    rw [shapeOf_of_documented nops hd] at h
    cases h
    have hs := documentedShape_sound op
    rw [hd] at hs
    have at0 {i : Instr} {bs : List Byte} (hi : i.IsAt op bs) : i.FitsAt nops op bs := ⟨hi.1, by rw [hi.2.1], hi.2.2 nops, .inl hi.2.1⟩
    cases sh with
    | one i => exact at0 hs
    | two f => exact fun b => at0 (hs b)
    | three f => exact fun addr => at0 (hs addr)
    | unread n i => exact hs.elim
  | none =>
    simp only [shapeOf, hd] at h
    cases hl : nops.lookup op with
    | none => simp [hl] at h
    | some e =>
      simp only [hl, Option.map_some, Option.some.injEq] at h
      subst h
      exact nopShape_sound hd hn hl

end Sys2Proof
end

