-- ==== Sys2Proof/Laws/Ops.lean ====
section
/-! SUPPORT. One equation per shared operation: what a push, a pull, a vector read, an entry and a return do to the state. The stack page and the zero page
are RAM and the vectors lie in the cartridge, so none of these has a device's side effect. -/

namespace Sys2Proof.Machine

/-- A push stores one byte of RAM and moves the stack pointer. -/
theorem State.push_eq (s : State) (v : Byte) : s.push v = (s.setRam (s.ram.write (0x100 + s.sp.toNat) v)).setSp (s.sp - 1) := by
  unfold State.push
  rw [State.cpuWrite_ramCell (regionOf_stackSlot s.sp)]

/-- A pull reads one byte of RAM and moves the stack pointer. -/
theorem State.pull_eq (s : State) : s.pull = (s.ram.read (0x100 + (s.sp + 1).toNat), s.setSp (s.sp + 1)) := by
  unfold State.pull
  rw [State.cpuRead_ramCell (regionOf_stackSlot (s.sp + 1))]
  rfl

theorem State.push16_eq (s : State) (w : Addr) :
    s.push16 w =
      (s.setRam ((s.ram.write (0x100 + s.sp.toNat) (hi w)).write (0x100 + (s.sp - 1).toNat) (lo w))).setSp (s.sp - 2) := by
  unfold State.push16
  rw [State.push_eq, State.push_eq]
  simp only [State.setSp_sp, State.setSp_ram, State.setRam_ram]
  rw [show s.sp - 1 - 1 = s.sp - 2 by rw [BitVec.sub_sub]; rfl]
  rfl

theorem State.pull16_eq (s : State) :
    s.pull16 =
      (word (s.ram.read (0x100 + (s.sp + 2).toNat)) (s.ram.read (0x100 + (s.sp + 1).toNat)), s.setSp (s.sp + 2)) := by
  unfold State.pull16
  rw [State.pull_eq]
  simp only [State.pull_eq, State.setSp_sp, State.setSp_ram]
  rw [show s.sp + 1 + 1 = s.sp + 2 by rw [BitVec.add_assoc]; rfl]
  rfl

theorem regionOf_vector {a : Addr} (h : 0x4020 ≤ a.toNat) : regionOf a = .cartridge := by
  unfold regionOf
  repeat' split
  all_goals first | rfl | omega

/-- A 16-bit read in the cartridge window has no side effect. -/
theorem State.read16_cartridge (s : State) {a : Addr} (h : 0x4020 ≤ a.toNat) (h' : 0x4020 ≤ (a + 1).toNat) :
    s.read16 a = (word (s.cart.cpuRead (a + 1)) (s.cart.cpuRead a), s) := by
  unfold State.read16
  simp only [State.cpuRead_cartridge (regionOf_vector h), State.cpuRead_cartridge (regionOf_vector h')]

/-- A zero-page pointer read (20_memory R75): both bytes are RAM of the zero page. -/
theorem State.read16Wrap_zeroPage (s : State) (p : Byte) :
    s.read16Wrap (zext16 p) = (word (s.ram.read (p + 1).toNat) (s.ram.read p.toNat), s) := by
  unfold State.read16Wrap
  simp only [nextInPage_zext16, State.cpuRead_ramCell (regionOf_zext16 _)]

/-- The three bytes an entry pushes (60 R315, R319). -/
def entryRam (ram : Memory) (sp : Byte) (ret : Addr) (status : Byte) : Memory :=
  ((ram.write (0x100 + sp.toNat) (hi ret)).write (0x100 + (sp - 1).toNat) (lo ret)).write (0x100 + (sp - 2).toNat) status

/-- Entering a handler through a vector of the cartridge window. -/
theorem State.enterHandler_eq (s : State) (ret vector : Addr) (cost : Nat) (h : 0x4020 ≤ vector.toNat)
    (h' : 0x4020 ≤ (vector + 1).toNat) :
    s.enterHandler ret vector cost =
      ((((s.setRam (entryRam s.ram s.sp ret s.flags.pack)).setSp (s.sp - 3)).setFlags { s.flags with i := true }).setPc
        (word (s.cart.cpuRead (vector + 1)) (s.cart.cpuRead vector))).setCycles (s.cycles + cost) := by
  unfold State.enterHandler
  simp only [State.push16_eq, State.push_eq]
  rw [State.read16_cartridge _ h h']
  simp only [State.setSp_sp, State.setSp_ram, State.setRam_ram]
  rw [show s.sp - 2 - 1 = s.sp - 3 by rw [BitVec.sub_sub]; rfl]
  rfl

/-- Returning from a handler. -/
theorem State.returnFromHandler_eq (s : State) (cost : Nat) :
    s.returnFromHandler cost =
      (((s.setSp (s.sp + 3)).setFlags (Flags.unpack (s.ram.read (0x100 + (s.sp + 1).toNat)))).setPc
        (word (s.ram.read (0x100 + (s.sp + 3).toNat)) (s.ram.read (0x100 + (s.sp + 2).toNat)))).setCycles (s.cycles + cost) := by
  unfold State.returnFromHandler
  rw [State.pull_eq]
  simp only [State.pull16_eq, State.setFlags_sp, State.setSp_sp, State.setFlags_ram, State.setSp_ram]
  rw [show s.sp + 1 + 1 = s.sp + 2 by rw [BitVec.add_assoc]; rfl, show s.sp + 1 + 2 = s.sp + 3 by rw [BitVec.add_assoc]; rfl]
  rfl

/-- The NMI entry is always an entry. -/
theorem State.nmiEntry_eq (s : State) :
    s.nmiEntry = (s.setNmiPending false).enterHandler s.pc nmiVector nmiEntryCycles := rfl

end Sys2Proof.Machine
end

