-- ==== Sys2Proof/Laws/Exec.lean ====
section
/-! SUPPORT. The meanings by class: what `exec` does with an instruction is a function of its mnemonic and mode, and it always answers a next state. -/

namespace Sys2Proof.Machine

/-- The effect of a reading mnemonic on the value it read. -/
def ReadOp.effect : ReadOp → Byte → State → State
  | .ora => oraEffect
  | .and => andEffect
  | .eor => eorEffect
  | .adc => adcEffect
  | .lda => ldaEffect
  | .cmp => cmpEffect
  | .sbc => sbcEffect
  | .ldx => ldxEffect
  | .ldy => ldyEffect
  | .bit => bitEffect
  | .cpx => cpxEffect
  | .cpy => cpyEffect

/-- The function a modifying mnemonic computes. -/
def ModifyOp.fn : ModifyOp → Byte → Flags → Byte × Flags
  | .asl => Machine.asl
  | .rol => Machine.rol
  | .lsr => Machine.lsr
  | .ror => Machine.ror
  | .dec => Machine.decr
  | .inc => Machine.incr

/-- The effect of a one-byte instruction. -/
def ImpliedOp.effect : ImpliedOp → State → State
  | .nop => nopEffect
  | .php => phpEffect
  | .plp => plpEffect
  | .pha => phaEffect
  | .pla => plaEffect
  | .tay => tayEffect
  | .tya => tyaEffect
  | .txa => txaEffect
  | .tax => taxEffect
  | .txs => txsEffect
  | .tsx => tsxEffect
  | .dey => deyEffect
  | .iny => inyEffect
  | .inx => inxEffect
  | .dex => dexEffect
  | .clc => clcEffect
  | .sec => secEffect
  | .cli => cliEffect
  | .sei => seiEffect
  | .clv => clvEffect
  | .cld => cldEffect
  | .sed => sedEffect

/-- The cost of a one-byte instruction (44 R260). -/
def ImpliedOp.cost : ImpliedOp → Nat
  | .nop => 2
  | .php => 3
  | .plp => 4
  | .pha => 3
  | .pla => 4
  | .tay => 2
  | .tya => 2
  | .txa => 2
  | .tax => 2
  | .txs => 2
  | .tsx => 2
  | .dey => 2
  | .iny => 2
  | .inx => 2
  | .dex => 2
  | .clc => 2
  | .sec => 2
  | .cli => 2
  | .sei => 2
  | .clv => 2
  | .cld => 2
  | .sed => 2

/-- The next state an action gives. -/
def Action.perform (act : Action) (s : State) : State :=
  match act with
  | .read op m => readInstr op.effect m s
  | .store op m => storeInstr (op.value s) m s
  | .modify op m => modifyInstr op.fn m s
  | .branch op d => branchInstr (op.taken s.flags) d s
  | .implied op => impliedInstr op.effect op.cost s
  | .jmp addr => s.jump addr 3
  | .jmpInd addr => (s.read16Wrap addr).2.jump (s.read16Wrap addr).1 5
  | .jsr addr => (s.push16 (s.pc + 2)).jump addr 6
  | .brk => (s.setFlags { s.flags with b := true }).enterHandler (s.pc + BitVec.ofNat 16 s.params.brkPushOffset) brkVector 7
  | .rti => s.returnFromHandler 6
  | .rts => s.pull16.2.jump (s.pull16.1 + 1) 6
  | .nopStar n => Machine.nopStar n s

/-- Every instruction performs its action. -/
theorem exec_eq_perform (i : Instr) (s : State) : exec i s = .next ((action i).perform s) := by
  cases i <;> rfl

end Sys2Proof.Machine
end

