-- ==== Sys2Proof/Laws/Flags.lean ====
section
/-! SUPPORT. The flag computations in numbers: zero and sign of a result, carry and overflow of a sum and of a difference, the shifts. -/

namespace Sys2Proof.Machine

theorem getLsbD_seven (v : Byte) : v.getLsbD 7 = decide (128 ≤ v.toNat) := by
  revert v
  decide

theorem beq_zero_eq (v : Byte) : (v == 0) = decide (v.toNat = 0) := by
  revert v
  decide

/-- `SetZN` in numbers. -/
theorem Flags.setZN_eq (r : Byte) (f : Flags) : f.setZN r = { f with z := decide (r.toNat = 0), n := decide (128 ≤ r.toNat) } := by
  rw [Flags.setZN, beq_zero_eq, getLsbD_seven]

/-- A signed byte in numbers. -/
theorem toInt_byte (a : Byte) : a.toInt = a.toNat - (if a.msb then 256 else 0) := by
  rw [BitVec.toInt_eq_msb_cond]
  split <;> simp

/-- The overflow rule of 40 R184 in its own words: the operands share a sign and the result's differs. -/
theorem adcOverflow_eq (a b : Byte) (c : Bool) : adcOverflow a b c = decide (a.msb = b.msb ∧ (adcResult a b c).msb ≠ a.msb) := by
  unfold adcOverflow
  generalize adcResult a b c = r
  have h : ((a ^^^ r) &&& (b ^^^ r) &&& 0x80) ≠ 0 ↔ ((a ^^^ r) &&& (b ^^^ r)).msb = true := by
    generalize (a ^^^ r) &&& (b ^^^ r) = q
    revert q
    decide
  rw [Bool.eq_iff_iff, bne_iff_ne, h, decide_eq_true_eq]
  simp only [BitVec.msb_and, BitVec.msb_xor]
  cases a.msb <;> cases b.msb <;> cases r.msb <;> simp

theorem adcResult_toNat (a b : Byte) (c : Bool) : (adcResult a b c).toNat = (a.toNat + b.toNat + c.toNat) % 256 := by
  simp [adcResult]

theorem not_toNat (m : Byte) : (~~~m).toNat = 255 - m.toNat := by simp

/-- A sum with the complement is a difference (40 R188). -/
theorem adcResult_not (a m : Byte) (c : Bool) : adcResult a (~~~m) c = BitVec.ofInt 8 ((a.toNat : Int) - m.toNat - (1 - c.toNat)) := by
  have l1 := a.isLt
  have l2 := m.isLt
  have l3 := Bool.toNat_lt c
  apply BitVec.eq_of_toNat_eq
  rw [adcResult_toNat, not_toNat, BitVec.toNat_ofInt]
  omega

/-- The flag computations of CMP, CPX and CPY in numbers. -/
theorem Flags.compare_eq (r m : Byte) (f : Flags) :
    f.compare r m =
      { f with
        c := decide (m.toNat ≤ r.toNat), z := decide (r.toNat = m.toNat)
        n := decide (128 ≤ ((r.toNat : Int) - m.toNat) % 256) } := by
  have l1 := r.isLt
  have l2 := m.isLt
  have hz : (r == m) = decide (r.toNat = m.toNat) := by
    rw [Bool.eq_iff_iff, beq_iff_eq, decide_eq_true_eq]
    exact ⟨fun h => by rw [h], BitVec.eq_of_toNat_eq⟩
  have hn : (r - m).getLsbD 7 = decide (128 ≤ ((r.toNat : Int) - m.toNat) % 256) := by
    rw [getLsbD_seven, BitVec.toNat_sub]
    exact decide_eq_decide.mpr (by omega)
  rw [Flags.compare, hz, hn]

theorem ModifyOp.newValue_lt (op : ModifyOp) (v : Byte) (c : Bool) : op.newValue v.toNat c < 256 := by
  have := v.isLt
  have := Bool.toNat_lt c
  cases op <;> simp only [ModifyOp.newValue] <;> omega

/-- The shifts, rotations and counts in numbers. -/
theorem ModifyOp.fn_eq (op : ModifyOp) (v : Byte) (f : Flags) :
    op.fn v f = (BitVec.ofNat 8 (op.newValue v.toNat f.c),
      { f with
        c := op.carryOut v.toNat f.c, z := decide (op.newValue v.toNat f.c = 0), n := decide (128 ≤ op.newValue v.toNat f.c) }) := by
  have e0 : v.getLsbD 0 = decide (v.toNat % 2 = 1) := by
    revert v
    decide
  have hr : (op.fn v f).1 = BitVec.ofNat 8 (op.newValue v.toNat f.c) := by
    have shifts : v <<< 1 = BitVec.ofNat 8 (2 * v.toNat % 256) ∧ v >>> 1 = BitVec.ofNat 8 (v.toNat / 2)
        ∧ v + 1 = BitVec.ofNat 8 ((v.toNat + 1) % 256) ∧ v - 1 = BitVec.ofNat 8 ((v.toNat + 255) % 256) := by
      clear e0
      revert v
      decide
    have rotates (c : Bool) : v <<< 1 ||| BitVec.ofNat 8 c.toNat = BitVec.ofNat 8 ((2 * v.toNat + c.toNat) % 256)
        ∧ v >>> 1 ||| BitVec.ofNat 8 c.toNat <<< 7 = BitVec.ofNat 8 (v.toNat / 2 + 128 * c.toNat) := by
      clear e0 shifts
      revert v c
      decide
    cases op
    case asl => exact shifts.1
    case rol => exact (rotates f.c).1
    case lsr => exact shifts.2.1
    case ror => exact (rotates f.c).2
    case dec => exact shifts.2.2.2
    case inc => exact shifts.2.2.1
  have hf : (op.fn v f).2 = ({ f with c := op.carryOut v.toNat f.c } : Flags).setZN (op.fn v f).1 := by
    cases op
    case inc => rfl
    case dec => rfl
    all_goals
      simp only [ModifyOp.fn, ModifyOp.carryOut, ← getLsbD_seven, ← e0]
      rfl
  rw [← Prod.mk.eta (p := op.fn v f), hf, hr, Flags.setZN_eq, BitVec.toNat_ofNat, Nat.mod_eq_of_lt (op.newValue_lt v f.c)]

end Sys2Proof.Machine
end

