-- ==== Sys2Proof/Laws/Operands.lean ====
section
/-! SUPPORT. What assembling an operand can do: the pointer reads lie in RAM and change nothing; a dummy read and the operand's read change one device at
most. -/

namespace Sys2Proof.Machine

/-- The pointer fetches have no side effect (20_memory R75, R77). -/
@[simp] theorem MemMode.effective_state (m : MemMode) (s : State) : (m.effective s).state = s := by
  cases m <;> simp [MemMode.effective, State.read16Wrap_zeroPage]

/-- The state an operand is accessed in: the one before, or the one after the dummy read (30 R158). -/
theorem MemMode.access_state (m : MemMode) (s : State) :
    (m.access s).state = s ∨ (m.access s).state = (s.cpuRead (m.effective s).partialAddr).2 := by
  unfold MemMode.access
  simp only [MemMode.effective_state]
  split
  · exact .inr rfl
  · exact .inl rfl

/-- What holds of a state and is kept by every read holds when the operand is accessed. -/
theorem MemMode.access_induct {P : State → Prop} (read : ∀ s a, P s → P (s.cpuRead a).2) (m : MemMode) (s : State) (h : P s) :
    P (m.access s).state := by
  rcases m.access_state s with e | e <;> rw [e]
  · exact h
  · exact read s _ h

/-- The same for the operand of a reading instruction. -/
theorem ReadMode.operand_induct {P : State → Prop} (read : ∀ s a, P s → P (s.cpuRead a).2) (m : ReadMode) (s : State) (h : P s) :
    P (m.operand s).state := by
  cases m with
  | imm v => exact h
  | mem m => exact read _ _ (m.access_induct read s h)

/-- Assembling an operand leaves everything outside the bus side alone. -/
theorem MemMode.access_busOver (m : MemMode) (s : State) : (m.access s).state = (m.access s).state.busOver s := by
  rcases m.access_state s with e | e <;> rw [e]
  · rfl
  · exact State.cpuRead_busOver _ _

theorem ReadMode.operand_busOver (m : ReadMode) (s : State) : (m.operand s).state = (m.operand s).state.busOver s := by
  cases m with
  | imm v => rfl
  | mem m =>
    show ((m.access s).state.cpuRead (m.access s).ea).2 = _
    rw [m.access_busOver]
    exact congrArg Prod.snd (State.busOver_cpuRead _ s _)

@[simp] theorem MemMode.access_pc (m : MemMode) (s : State) : (m.access s).state.pc = s.pc := by rw [m.access_busOver]; rfl
@[simp] theorem MemMode.access_cycles (m : MemMode) (s : State) : (m.access s).state.cycles = s.cycles := by rw [m.access_busOver]; rfl
@[simp] theorem MemMode.access_flags (m : MemMode) (s : State) : (m.access s).state.flags = s.flags := by rw [m.access_busOver]; rfl
@[simp] theorem MemMode.access_params (m : MemMode) (s : State) : (m.access s).state.params = s.params := by rw [m.access_busOver]; rfl
@[simp] theorem ReadMode.operand_a (m : ReadMode) (s : State) : (m.operand s).state.a = s.a := by rw [m.operand_busOver]; rfl
@[simp] theorem ReadMode.operand_x (m : ReadMode) (s : State) : (m.operand s).state.x = s.x := by rw [m.operand_busOver]; rfl
@[simp] theorem ReadMode.operand_y (m : ReadMode) (s : State) : (m.operand s).state.y = s.y := by rw [m.operand_busOver]; rfl
@[simp] theorem ReadMode.operand_pc (m : ReadMode) (s : State) : (m.operand s).state.pc = s.pc := by rw [m.operand_busOver]; rfl
@[simp] theorem ReadMode.operand_flags (m : ReadMode) (s : State) : (m.operand s).state.flags = s.flags := by rw [m.operand_busOver]; rfl
@[simp] theorem ReadMode.operand_cycles (m : ReadMode) (s : State) : (m.operand s).state.cycles = s.cycles := by rw [m.operand_busOver]; rfl

/-! The flags do not reach the operand. -/

theorem MemMode.effective_setFlags (m : MemMode) (s : State) (f : Flags) :
    m.effective (s.setFlags f) = { m.effective s with state := s.setFlags f } := by
  cases m <;> simp [MemMode.effective, State.read16Wrap_zeroPage]

theorem MemMode.access_setFlags (m : MemMode) (s : State) (f : Flags) :
    m.access (s.setFlags f) = { m.access s with state := (m.access s).state.setFlags f } := by
  simp only [MemMode.access, MemMode.effective_setFlags, MemMode.effective_state, State.setFlags_params]
  have crossed : Effective.crossed { m.effective s with state := s.setFlags f } = (m.effective s).crossed := rfl
  have part : Effective.partialAddr { m.effective s with state := s.setFlags f } = (m.effective s).partialAddr := rfl
  rw [crossed, part, State.cpuRead_setFlags, apply_ite (fun u : State => u.setFlags f)]

theorem ReadMode.operand_setFlags (m : ReadMode) (s : State) (f : Flags) :
    m.operand (s.setFlags f) = { m.operand s with state := (m.operand s).state.setFlags f } := by
  cases m with
  | imm v => rfl
  | mem m => simp only [ReadMode.operand, MemMode.access_setFlags, State.cpuRead_setFlags]

end Sys2Proof.Machine
end

