-- ==== Sys2Proof/Laws/Cost.lean ====
section
/-! SUPPORT. What each instruction adds to the cycle count and, where it is no control transfer, to the program counter. -/

namespace Sys2Proof.Machine

@[simp] theorem State.finish_cycles (s : State) (length cost : Nat) : (s.finish length cost).cycles = s.cycles + cost := rfl
@[simp] theorem State.jump_cycles (s : State) (target : Addr) (cost : Nat) : (s.jump target cost).cycles = s.cycles + cost := rfl

/-- The cycles an action takes from a state (70 R440). -/
def Action.cost (act : Action) (s : State) : Nat :=
  match act with
  | .read _ m => m.cost (m.operand s).crossed
  | .store _ m => m.storeCost
  | .modify _ m => m.cost
  | .branch op d => if op.taken s.flags then 3 + (pageCrossed (s.pc + 2) (s.pc + 2 + sext16 d)).toNat else 2
  | .implied op => op.cost
  | .jmp _ => 3
  | .jmpInd _ => 5
  | .jsr _ => 6
  | .brk => 7
  | .rti => 6
  | .rts => 6
  | .nopStar n => n + 1

theorem modifyMem_cycles (f : Byte → Flags → Byte × Flags) (m : MemMode) (cost : Nat) (s : State) : (modifyMem f m cost s).cycles = s.cycles + cost := by
  simp [modifyMem]

/-- Every action adds its cost to the cycle count. -/
theorem Action.perform_cycles (act : Action) (s : State) : (act.perform s).cycles = s.cycles + act.cost s := by
  cases act with
  | read op m =>
    have h : (op.effect (m.operand s).value (m.operand s).state).cycles = (m.operand s).state.cycles := by cases op <;> rfl
    simp only [Action.perform, readInstr, State.finish_cycles, h, ReadMode.operand_cycles]
    rfl
  | store op m =>
    simp only [Action.perform, storeInstr, State.finish_cycles, State.cpuWrite_cycles, MemMode.access_cycles]
    rfl
  | modify op m => cases m <;> first | exact modifyMem_cycles _ _ _ s | rfl
  | branch op d =>
    simp only [Action.perform, branchInstr, Action.cost]
    split <;> rfl
  | implied op =>
    have h : (op.effect s).cycles = s.cycles := by
      cases op <;> simp only [ImpliedOp.effect, phpEffect, phaEffect, plpEffect, plaEffect, State.push_eq, State.pull_eq] <;> rfl
    simp only [Action.perform, impliedInstr, State.finish_cycles, h]
    rfl
  | jmp a => rfl
  | jmpInd a => simp [Action.perform, State.read16Wrap, Action.cost]
  | jsr a => simp [Action.perform, State.push16_eq, Action.cost]
  | brk =>
    simp only [Action.perform]
    rw [State.enterHandler_eq _ _ _ _ (by decide) (by decide)]
    rfl
  | rti =>
    simp only [Action.perform]
    rw [State.returnFromHandler_eq]
    rfl
  | rts => simp [Action.perform, State.pull16_eq, Action.cost]
  | nopStar n => rfl

theorem Instr.length_eq (i : Instr) : i.length = (operandBytes i).length + 1 := rfl

/-- The length of an action is that of the instruction's encoding (30 R142). -/
theorem action_length {i : Instr} {nops : List (Byte × NopEntry)} (hw : i.wf nops = true) : (action i).length = i.length := by
  have pos : ∀ op e, i = .nopStarOther op e → 1 ≤ e.length := by
    rintro op e rfl
    exact (nopStarOther_wf.mp hw).1.1.2.1.1
  clear hw
  rw [Instr.length_eq]
  cases i with
  | nopStarOther op e =>
    have := pos op e rfl
    simp only [action, Action.length, operandBytes, List.length_replicate]
    omega
  | _ => rfl

/-- An instruction that is no control transfer moves `PC` past itself (10_state R21). -/
theorem Action.perform_pc {act : Action} (s : State) (h : act.writesPc = false) : (act.perform s).pc = s.pc + BitVec.ofNat 16 act.length := by
  cases act with
  | read op m =>
    have he : (op.effect (m.operand s).value (m.operand s).state).pc = (m.operand s).state.pc := by cases op <;> rfl
    simp [Action.perform, readInstr, State.finish, he, Action.length]
  | store op m => simp [Action.perform, storeInstr, State.finish, Action.length]
  | modify op m => cases m <;> simp [Action.perform, modifyInstr, modifyMem, State.finish, Action.length, RmwMode.length, MemMode.length]
  | implied op =>
    have he : (op.effect s).pc = s.pc := by
      cases op <;> simp only [ImpliedOp.effect, phpEffect, phaEffect, plpEffect, plaEffect, State.push_eq, State.pull_eq] <;> rfl
    simp [Action.perform, impliedInstr, State.finish, he, Action.length]
  | nopStar n => rfl
  | branch op d => cases h
  | jmp addr => cases h
  | jmpInd addr => cases h
  | jsr addr => cases h
  | brk => cases h
  | rti => cases h
  | rts => cases h

end Sys2Proof.Machine
end

