-- ==== Sys2Proof/Laws/Tick.lean ====
section
/-! SUPPORT. What one dot of the picture unit can do: it changes the picture unit, the NMI latch and the recorded callbacks, and it moves the position by
one. -/

namespace Sys2Proof.Machine

/-- Every action of the schedule, and every tick, changes these three parts of the state only. -/
abbrev State.SameOutsidePpu (s t : State) : Prop :=
  t = ((s.setPpu t.ppu).setNmiPending t.nmiPending).setEvents t.events

theorem State.SameOutsidePpu.refl (s : State) : s.SameOutsidePpu s := rfl

theorem State.SameOutsidePpu.trans {s t u : State} (h : s.SameOutsidePpu t) (h' : t.SameOutsidePpu u) : s.SameOutsidePpu u := by
  rw [State.SameOutsidePpu, h', h]
  rfl

theorem State.prerenderAction_outside (s : State) : s.SameOutsidePpu s.prerenderAction := by
  unfold State.prerenderAction
  split <;> rfl

theorem State.clearAction_outside (s : State) : s.SameOutsidePpu s.clearAction := by
  unfold State.clearAction
  split <;> rfl

theorem State.evaluateAction_outside (s : State) : s.SameOutsidePpu s.evaluateAction := by
  unfold State.evaluateAction
  split <;> rfl

theorem State.loadAction_outside (s : State) : s.SameOutsidePpu s.loadAction := by
  unfold State.loadAction State.loadSlots
  split <;> rfl

theorem State.drawAction_outside (s : State) : s.SameOutsidePpu s.drawAction := by
  unfold State.drawAction State.drawPixel
  split <;> rfl

theorem State.vblankAction_outside (s : State) : s.SameOutsidePpu s.vblankAction := by
  unfold State.vblankAction
  split
  · dsimp only
    split <;> rfl
  · rfl

theorem State.act_outside (s : State) : s.SameOutsidePpu s.act :=
  s.prerenderAction_outside.trans <| (State.clearAction_outside _).trans <| (State.evaluateAction_outside _).trans <|
    (State.loadAction_outside _).trans <| (State.drawAction_outside _).trans (State.vblankAction_outside _)

theorem State.tick_outside (s : State) : s.SameOutsidePpu s.tick := s.act_outside.trans rfl

theorem State.ticks_outside : ∀ (n : Nat) (s : State), s.SameOutsidePpu (State.ticks n s)
  | 0, _ => rfl
  | n + 1, s => s.tick_outside.trans (State.ticks_outside n s.tick)

theorem State.SameOutsidePpu.a {s t : State} (h : s.SameOutsidePpu t) : t.a = s.a := by rw [h]; rfl
theorem State.SameOutsidePpu.x {s t : State} (h : s.SameOutsidePpu t) : t.x = s.x := by rw [h]; rfl
theorem State.SameOutsidePpu.y {s t : State} (h : s.SameOutsidePpu t) : t.y = s.y := by rw [h]; rfl
theorem State.SameOutsidePpu.sp {s t : State} (h : s.SameOutsidePpu t) : t.sp = s.sp := by rw [h]; rfl
theorem State.SameOutsidePpu.pc {s t : State} (h : s.SameOutsidePpu t) : t.pc = s.pc := by rw [h]; rfl
theorem State.SameOutsidePpu.flags {s t : State} (h : s.SameOutsidePpu t) : t.flags = s.flags := by rw [h]; rfl
theorem State.SameOutsidePpu.cycles {s t : State} (h : s.SameOutsidePpu t) : t.cycles = s.cycles := by rw [h]; rfl
theorem State.SameOutsidePpu.halted {s t : State} (h : s.SameOutsidePpu t) : t.halted = s.halted := by rw [h]; rfl
theorem State.SameOutsidePpu.ram {s t : State} (h : s.SameOutsidePpu t) : t.ram = s.ram := by rw [h]; rfl
theorem State.SameOutsidePpu.cart {s t : State} (h : s.SameOutsidePpu t) : t.cart = s.cart := by rw [h]; rfl
theorem State.SameOutsidePpu.input1 {s t : State} (h : s.SameOutsidePpu t) : t.input1 = s.input1 := by rw [h]; rfl
theorem State.SameOutsidePpu.input2 {s t : State} (h : s.SameOutsidePpu t) : t.input2 = s.input2 := by rw [h]; rfl
theorem State.SameOutsidePpu.params {s t : State} (h : s.SameOutsidePpu t) : t.params = s.params := by rw [h]; rfl
theorem State.SameOutsidePpu.drawn {s t : State} (h : s.SameOutsidePpu t) : t.drawn = s.drawn := by rw [h]; rfl

/-! The position. -/

theorem Ppu.selectFrom_position : ∀ (k : Nat) (p : Ppu), (Ppu.selectFrom k p).1.position = p.position
  | 0, _ => rfl
  | k + 1, p => by
    unfold Ppu.selectFrom
    split
    · rw [Ppu.selectFrom_position k]
      split <;> rfl
    · rfl

theorem State.act_position (s : State) : s.act.ppu.position = s.ppu.position := by
  have h1 : s.prerenderAction.ppu.position = s.ppu.position := by unfold State.prerenderAction; split <;> rfl
  have h2 (t : State) : t.clearAction.ppu.position = t.ppu.position := by unfold State.clearAction; split <;> rfl
  have h3 (t : State) : t.evaluateAction.ppu.position = t.ppu.position := by
    unfold State.evaluateAction
    split
    · exact Ppu.selectFrom_position 64 t.ppu
    · rfl
  have h4 (t : State) : t.loadAction.ppu.position = t.ppu.position := by unfold State.loadAction State.loadSlots; split <;> rfl
  have h5 (t : State) : t.drawAction.ppu.position = t.ppu.position := by unfold State.drawAction State.drawPixel; split <;> rfl
  have h6 (t : State) : t.vblankAction.ppu.position = t.ppu.position := by
    unfold State.vblankAction
    split
    · dsimp only
      split <;> rfl
    · rfl
  unfold State.act
  rw [h6, h5, h4, h3, h2, h1]

/-- A tick moves the position by one dot (61 R351, R352). -/
theorem State.tick_position (s : State) : s.tick.ppu.position = s.ppu.position.advance := by
  rw [← s.act_position]
  rfl

/-! The flags. -/

/-- The picture unit does not see the processor's flags. -/
theorem State.tick_setFlags (s : State) (f : Flags) : (s.setFlags f).tick = s.tick.setFlags f := by
  have h1 (t : State) : (t.setFlags f).prerenderAction = t.prerenderAction.setFlags f := by
    refine Eq.trans ?_ (apply_ite (fun u : State => u.setFlags f) _ _ _).symm
    rfl
  have h2 (t : State) : (t.setFlags f).clearAction = t.clearAction.setFlags f := by
    refine Eq.trans ?_ (apply_ite (fun u : State => u.setFlags f) _ _ _).symm
    rfl
  have h3 (t : State) : (t.setFlags f).evaluateAction = t.evaluateAction.setFlags f := by
    refine Eq.trans ?_ (apply_ite (fun u : State => u.setFlags f) _ _ _).symm
    rfl
  have h4 (t : State) : (t.setFlags f).loadAction = t.loadAction.setFlags f := by
    refine Eq.trans ?_ (apply_ite (fun u : State => u.setFlags f) _ _ _).symm
    rfl
  have h5 (t : State) : (t.setFlags f).drawAction = t.drawAction.setFlags f := by
    refine Eq.trans ?_ (apply_ite (fun u : State => u.setFlags f) _ _ _).symm
    rfl
  have h6 (t : State) : (t.setFlags f).vblankAction = t.vblankAction.setFlags f := by
    have inner := apply_ite (fun u : State => u.setFlags f) (t.ppu.ctrl.getLsbD 7 = true)
      (((t.setEvents (t.events ++ [.frameComplete])).setPpu { t.ppu with vblank := true }).setNmiPending true)
      ((t.setEvents (t.events ++ [.frameComplete])).setPpu { t.ppu with vblank := true })
    refine Eq.trans ?_ (apply_ite (fun u : State => u.setFlags f) _ _ _).symm
    exact congrArg (fun u => if t.ppu.scanline = 241 ∧ t.ppu.dot = 1 then u else t.setFlags f) inner.symm
  simp only [State.tick, State.act, h1, h2, h3, h4, h5, h6]
  rfl

theorem State.ticks_setFlags (f : Flags) : ∀ (n : Nat) (s : State), State.ticks n (s.setFlags f) = (State.ticks n s).setFlags f
  | 0, _ => rfl
  | n + 1, s => by rw [State.ticks, State.tick_setFlags, State.ticks_setFlags f n]; rfl

end Sys2Proof.Machine
end

