-- ==== Sys2Proof/Laws/Step.lean ====
section
/-! SUPPORT. The shape of a step: what a running machine does in one round. -/

namespace Sys2Proof.Machine

/-- The callback record is seen by no read. -/
theorem State.cpuRead_setEvents (s : State) (e : List Event) (a : Addr) :
    (s.setEvents e).cpuRead a = ((s.cpuRead a).1, (s.cpuRead a).2.setEvents e) := by
  unfold State.cpuRead
  split <;> try rfl
  next r _ => cases r <;> rfl

theorem step_halted {s : State} {pc : Addr} {op : Byte} (h : s.halted = some (pc, op)) : step s = .fault (.halted pc op) := by
  unfold step oneRound
  rw [h]

theorem step_running {s : State} (h : s.Running) : step s = runUnit (s.setEvents []) := by
  unfold step oneRound
  rw [show s.halted = none from h]

theorem step_nmi {s : State} (h : s.Running) (hn : s.nmiPending = true) :
    step s = .next (catchUp s (s.setEvents []).nmiEntry) := by
  rw [step_running h]
  simp only [runUnit, procUnit, State.setEvents_nmiPending, hn, if_true]
  rfl

/-- A step that fetches an instruction. -/
theorem step_exec {s t : State} {i : Instr} (h : s.Running) (hn : s.nmiPending = false) (hf : (s.setEvents []).fetch = (some i, t)) :
    step s = .next (catchUp s ((action i).perform t)) := by
  rw [step_running h]
  simp only [runUnit, procUnit, State.setEvents_nmiPending, hn, hf, exec_eq_perform, Bool.false_eq_true, if_false]
  rfl

/-- A step that meets an illegal opcode. -/
theorem step_illegal {s t : State} (h : s.Running) (hn : s.nmiPending = false) (hf : (s.setEvents []).fetch = (none, t)) :
    step s = .next (t.setHalted (some (s.pc, s.peek s.pc))) := by
  have ht : t.cycles = s.cycles := by
    have := congrArg (fun r => r.2.cycles) hf
    unfold State.fetch at this
    rw [← this]
    dsimp only
    repeat' split
    all_goals simp [State.read16]
  rw [step_running h]
  simp [runUnit, procUnit, hn, hf, catchUp, ht, State.ticks, State.cpuRead_setEvents, State.peek]

/-- Everything a step that answers a next state can be: an NMI entry, an instruction, or a fatal decode error. -/
theorem step_cases {s u : State} (h : step s = .next u) :
    s.Running ∧
      ((s.nmiPending = true ∧ u = catchUp s (s.setEvents []).nmiEntry)
        ∨ (∃ i t, s.nmiPending = false ∧ (s.setEvents []).fetch = (some i, t) ∧ u = catchUp s ((action i).perform t))
        ∨ ∃ t, s.nmiPending = false ∧ (s.setEvents []).fetch = (none, t) ∧ u = t.setHalted (some (s.pc, s.peek s.pc))) := by
  cases hh : s.halted with
  | some p => rw [step_halted hh] at h; cases h
  | none =>
    refine ⟨hh, ?_⟩
    cases hn : s.nmiPending with
    | true =>
      rw [step_nmi hh hn] at h
      exact .inl ⟨rfl, (Host.Outcome.next.inj h).symm⟩
    | false =>
      cases hf : (s.setEvents []).fetch with
      | mk o t =>
        cases o with
        | some i =>
          rw [step_exec hh hn hf] at h
          exact .inr (.inl ⟨i, t, rfl, rfl, (Host.Outcome.next.inj h).symm⟩)
        | none =>
          rw [step_illegal hh hn hf] at h
          exact .inr (.inr ⟨t, rfl, rfl, (Host.Outcome.next.inj h).symm⟩)

/-- What holds of a state and is kept by every read holds after the fetch. -/
theorem State.fetch_induct {P : State → Prop} (read : ∀ s a, P s → P (s.cpuRead a).2) (s : State) (h : P s) : P s.fetch.2 := by
  unfold State.fetch
  have h1 := read s s.pc h
  dsimp only
  split
  · exact h1
  · exact h1
  · exact h1
  · exact read _ _ h1
  · exact read _ _ (read _ _ h1)

/-- What is fetched is an instruction of the machine. -/
theorem State.fetch_wf {s t : State} {i : Instr} (hn : nopTableWf s.params.undocNops = true) (h : s.fetch = (some i, t)) :
    i.wf s.params.undocNops = true := by
  unfold State.fetch at h
  dsimp only at h
  cases hs : shapeOf s.params.undocNops (s.cpuRead s.pc).1 with
  | none => rw [hs] at h; cases h
  | some sh =>
    have sound := shapeOf_sound hn hs
    rw [hs] at h
    cases sh with
    | one j => cases h; exact sound.wf
    | two f => cases h; exact (sound _).wf
    | three f => cases h; exact (sound _).wf
    | unread n j => cases h; exact (sound (List.replicate n 0) (by simp)).wf

/-- The flags are not seen by the fetch. -/
theorem State.fetch_setFlags (s : State) (f : Flags) : (s.setFlags f).fetch = (s.fetch.1, s.fetch.2.setFlags f) := by
  simp only [State.fetch, State.read16, State.cpuRead_setFlags, State.setFlags_pc, State.setFlags_params]
  split <;> rfl

end Sys2Proof.Machine
end

