-- ==== Sys2Proof/Laws/Frame.lean ====
section
/-! SUPPORT. What an instruction can do, said once: reads, writes only if it stores or pushes, and changes of the processor's own registers and of the cycle
count. A property kept by these is kept by every instruction. -/

namespace Sys2Proof.Machine

/-- A state with other processor registers, flags and cycle count. -/
def State.withRegs (s : State) (a x y sp : Byte) (pc : Addr) (f : Flags) (cycles : Nat) : State :=
  { s with a := a, x := x, y := y, sp := sp, pc := pc, flags := f, cycles := cycles }

/-- The entry of a handler (60 R315, R319), by the same parts. -/
theorem State.enterHandler_induct {P : State → Prop} (read : ∀ s a, P s → P (s.cpuRead a).2) (write : ∀ s a v, P s → P (s.cpuWrite a v))
    (regs : ∀ s a x y sp pc f n, P s → P (s.withRegs a x y sp pc f n)) (ret vector : Addr) (cost : Nat) (s : State) (h : P s) :
    P (s.enterHandler ret vector cost) := by
  have push (t : State) (v : Byte) (ht : P t) : P (t.push v) :=
    let u := t.cpuWrite (stackSlot t.sp) v
    regs u u.a u.x u.y (t.sp - 1) u.pc u.flags u.cycles (write _ _ _ ht)
  let t := (s.push16 ret).push s.flags.pack
  let u := t.setFlags { t.flags with i := true }
  have hu : P u := regs t t.a t.x t.y t.sp t.pc { t.flags with i := true } t.cycles (push _ _ (push _ _ (push _ _ h)))
  let r := u.read16 vector
  have hr : P r.2 := read _ _ (read _ _ hu)
  exact regs r.2 r.2.a r.2.x r.2.y r.2.sp r.1 r.2.flags (r.2.cycles + cost) hr

/-- What is kept by reads, by register changes, and by writes where the instruction stores or pushes, is kept by the instruction. -/
theorem Action.perform_induct {P : State → Prop} (act : Action) (read : ∀ s a, P s → P (s.cpuRead a).2)
    (write : act.stores = true → ∀ s a v, P s → P (s.cpuWrite a v))
    (regs : ∀ s a x y sp pc f n, P s → P (s.withRegs a x y sp pc f n)) (s : State) (h : P s) : P (act.perform s) := by
  have finish (t : State) (l c : Nat) (ht : P t) : P (t.finish l c) := regs t t.a t.x t.y t.sp (t.pc + BitVec.ofNat 16 l) t.flags (t.cycles + c) ht
  have jump (t : State) (p : Addr) (c : Nat) (ht : P t) : P (t.jump p c) := regs t t.a t.x t.y t.sp p t.flags (t.cycles + c) ht
  have setSp (t : State) (v : Byte) (ht : P t) : P (t.setSp v) := regs t t.a t.x t.y v t.pc t.flags t.cycles ht
  have setFlags (t : State) (f : Flags) (ht : P t) : P (t.setFlags f) := regs t t.a t.x t.y t.sp t.pc f t.cycles ht
  have pull (t : State) (ht : P t) : P t.pull.2 := read _ _ (setSp _ _ ht)
  have pull16 (t : State) (ht : P t) : P t.pull16.2 := pull _ (pull _ ht)
  have readWrap (t : State) (a : Addr) (ht : P t) : P (t.read16Wrap a).2 := read _ _ (read _ _ ht)
  have push (hs : act.stores = true) (t : State) (v : Byte) (ht : P t) : P (t.push v) := setSp _ _ (write hs _ _ _ ht)
  cases act with
  | read op m =>
    have ho := m.operand_induct read s h
    let e := op.effect (m.operand s).value (m.operand s).state
    have h' := regs (m.operand s).state e.a e.x e.y e.sp e.pc e.flags e.cycles ho
    refine finish _ _ _ ?_
    cases op <;> exact h'
  | store op m => exact finish _ _ _ (write rfl _ _ _ (m.access_induct read s h))
  | modify op m =>
    have key (k : MemMode) (c : Nat) (hm : (Action.modify op m).stores = true) : P (modifyMem op.fn k c s) :=
      finish _ _ _ (write hm _ _ _ (setFlags _ _ (read _ _ (k.access_induct read s h))))
    cases m with
    | acc => exact finish _ _ _ (regs s (op.fn s.a s.flags).1 s.x s.y s.sp s.pc (op.fn s.a s.flags).2 s.cycles h)
    | zp a => exact key _ _ rfl
    | zpx a => exact key _ _ rfl
    | abs a => exact key _ _ rfl
    | abx a => exact key _ _ rfl
  | branch op d =>
    show P (if _ then _ else _)
    split
    · exact jump _ _ _ h
    · exact jump _ _ _ h
  | implied op =>
    let e := op.effect s
    have keep := regs s e.a e.x e.y e.sp e.pc e.flags e.cycles
    refine finish _ _ _ ?_
    cases op
    case php => exact push rfl _ _ h
    case pha => exact push rfl _ _ h
    case plp => exact setFlags _ _ (pull _ h)
    case pla =>
      exact regs s.pull.2 s.pull.1 s.pull.2.x s.pull.2.y s.pull.2.sp s.pull.2.pc (s.pull.2.flags.setZN s.pull.1) s.pull.2.cycles (pull _ h)
    all_goals exact keep h
  | jmp a => exact jump _ _ _ h
  | jmpInd a => exact jump _ _ _ (readWrap _ _ h)
  | jsr a => exact jump _ _ _ (push rfl _ _ (push rfl _ _ h))
  | brk => exact State.enterHandler_induct read (write rfl) regs _ _ _ _ (setFlags _ _ h)
  | rti => exact jump _ _ _ (pull16 _ (setFlags _ _ (pull _ h)))
  | rts => exact jump _ _ _ (pull16 _ h)
  | nopStar n => exact finish _ _ _ h

/-- The same of `exec`. -/
theorem exec_induct {P : State → Prop} {i : Instr} {s t : State} (he : exec i s = .next t) (read : ∀ s a, P s → P (s.cpuRead a).2)
    (write : (action i).stores = true → ∀ s a v, P s → P (s.cpuWrite a v))
    (regs : ∀ s a x y sp pc f n, P s → P (s.withRegs a x y sp pc f n)) (h : P s) : P t := by
  rw [exec_eq_perform] at he
  cases he
  exact (action i).perform_induct read write regs s h

/-- What is kept by bus accesses, by changes of the processor's registers, of the NMI latch, of the halted mark and of the callback record, and by a tick, is
kept by every step. -/
theorem step_induct {P : State → Prop} {s t : State} (hs : step s = .next t) (read : ∀ s a, P s → P (s.cpuRead a).2)
    (write : ∀ s a v, P s → P (s.cpuWrite a v)) (regs : ∀ s a x y sp pc f n, P s → P (s.withRegs a x y sp pc f n))
    (nmi : ∀ s b, P s → P (s.setNmiPending b)) (halt : ∀ s p, P s → P (s.setHalted p)) (events : ∀ s e, P s → P (s.setEvents e))
    (tick : ∀ s, P s → P s.tick) (h : P s) : P t := by
  have ticks : ∀ (n : Nat) (u : State), P u → P (State.ticks n u) := by
    intro n
    induction n with
    | zero => exact fun _ hu => hu
    | succ n ih => exact fun u hu => ih _ (tick u hu)
  have h0 := events s [] h
  obtain ⟨-, ⟨-, rfl⟩ | ⟨i, u, -, hf, rfl⟩ | ⟨u, -, hf, rfl⟩⟩ := step_cases hs
  · exact ticks _ _ (State.enterHandler_induct read write regs _ _ _ _ (nmi _ _ h0))
  · have hu := State.fetch_induct read _ h0
    rw [hf] at hu
    exact ticks _ _ ((action i).perform_induct read (fun _ => write) regs _ hu)
  · have hu := State.fetch_induct read _ h0
    rw [hf] at hu
    exact halt _ _ hu

end Sys2Proof.Machine
end

