-- ==== Sys2Proof/Laws/PerInstr.lean ====
section
/-! SUPPORT. Instruction by instruction: the shape its opcode decodes to, and that its operand bytes, read in that shape, give the instruction back
(30_encoding R140, R142, R159). -/

namespace Sys2Proof.Laws

/-- What a shape makes of the operand bytes that follow the opcode. -/
def readsAs (sh : Shape) (operand : List Byte) (i : Instr) : Prop :=
  match sh, operand with
  | .one j, [] => j = i
  | .two f, [b] => f b = i
  | .three f, [l, h] => f (Machine.word h l) = i
  | .unread n j, bs => bs.length = n ∧ j = i
  | _, _ => False

/-- The instruction's opcode has a shape, and its operand bytes read in that shape are the instruction. -/
def OpcodeShape.Statement (i : Instr) : Prop :=
  ∀ nops, i.wf nops = true → ∃ sh, shapeOf nops (opcode i) = some sh ∧ readsAs sh (operandBytes i) i

theorem OpcodeShape.oraIzx (p : Byte) : OpcodeShape.Statement (.oraIzx p) :=
  fun nops _ => ⟨.two .oraIzx, shapeOf_of_documented (op := 0x01) nops rfl, rfl⟩
theorem OpcodeShape.oraZp (a : Byte) : OpcodeShape.Statement (.oraZp a) :=
  fun nops _ => ⟨.two .oraZp, shapeOf_of_documented (op := 0x05) nops rfl, rfl⟩
theorem OpcodeShape.oraImm (v : Byte) : OpcodeShape.Statement (.oraImm v) :=
  fun nops _ => ⟨.two .oraImm, shapeOf_of_documented (op := 0x09) nops rfl, rfl⟩
theorem OpcodeShape.oraAbs (addr : Addr) : OpcodeShape.Statement (.oraAbs addr) :=
  fun nops _ => ⟨.three .oraAbs, shapeOf_of_documented (op := 0x0D) nops rfl, congrArg Instr.oraAbs (Machine.word_hi_lo addr)⟩
theorem OpcodeShape.oraIzy (p : Byte) : OpcodeShape.Statement (.oraIzy p) :=
  fun nops _ => ⟨.two .oraIzy, shapeOf_of_documented (op := 0x11) nops rfl, rfl⟩
theorem OpcodeShape.oraZpx (a : Byte) : OpcodeShape.Statement (.oraZpx a) :=
  fun nops _ => ⟨.two .oraZpx, shapeOf_of_documented (op := 0x15) nops rfl, rfl⟩
theorem OpcodeShape.oraAby (addr : Addr) : OpcodeShape.Statement (.oraAby addr) :=
  fun nops _ => ⟨.three .oraAby, shapeOf_of_documented (op := 0x19) nops rfl, congrArg Instr.oraAby (Machine.word_hi_lo addr)⟩
theorem OpcodeShape.oraAbx (addr : Addr) : OpcodeShape.Statement (.oraAbx addr) :=
  fun nops _ => ⟨.three .oraAbx, shapeOf_of_documented (op := 0x1D) nops rfl, congrArg Instr.oraAbx (Machine.word_hi_lo addr)⟩
theorem OpcodeShape.andIzx (p : Byte) : OpcodeShape.Statement (.andIzx p) :=
  fun nops _ => ⟨.two .andIzx, shapeOf_of_documented (op := 0x21) nops rfl, rfl⟩
theorem OpcodeShape.andZp (a : Byte) : OpcodeShape.Statement (.andZp a) :=
  fun nops _ => ⟨.two .andZp, shapeOf_of_documented (op := 0x25) nops rfl, rfl⟩
theorem OpcodeShape.andImm (v : Byte) : OpcodeShape.Statement (.andImm v) :=
  fun nops _ => ⟨.two .andImm, shapeOf_of_documented (op := 0x29) nops rfl, rfl⟩
theorem OpcodeShape.andAbs (addr : Addr) : OpcodeShape.Statement (.andAbs addr) :=
  fun nops _ => ⟨.three .andAbs, shapeOf_of_documented (op := 0x2D) nops rfl, congrArg Instr.andAbs (Machine.word_hi_lo addr)⟩
theorem OpcodeShape.andIzy (p : Byte) : OpcodeShape.Statement (.andIzy p) :=
  fun nops _ => ⟨.two .andIzy, shapeOf_of_documented (op := 0x31) nops rfl, rfl⟩
theorem OpcodeShape.andZpx (a : Byte) : OpcodeShape.Statement (.andZpx a) :=
  fun nops _ => ⟨.two .andZpx, shapeOf_of_documented (op := 0x35) nops rfl, rfl⟩
theorem OpcodeShape.andAby (addr : Addr) : OpcodeShape.Statement (.andAby addr) :=
  fun nops _ => ⟨.three .andAby, shapeOf_of_documented (op := 0x39) nops rfl, congrArg Instr.andAby (Machine.word_hi_lo addr)⟩
theorem OpcodeShape.andAbx (addr : Addr) : OpcodeShape.Statement (.andAbx addr) :=
  fun nops _ => ⟨.three .andAbx, shapeOf_of_documented (op := 0x3D) nops rfl, congrArg Instr.andAbx (Machine.word_hi_lo addr)⟩
theorem OpcodeShape.eorIzx (p : Byte) : OpcodeShape.Statement (.eorIzx p) :=
  fun nops _ => ⟨.two .eorIzx, shapeOf_of_documented (op := 0x41) nops rfl, rfl⟩
theorem OpcodeShape.eorZp (a : Byte) : OpcodeShape.Statement (.eorZp a) :=
  fun nops _ => ⟨.two .eorZp, shapeOf_of_documented (op := 0x45) nops rfl, rfl⟩
theorem OpcodeShape.eorImm (v : Byte) : OpcodeShape.Statement (.eorImm v) :=
  fun nops _ => ⟨.two .eorImm, shapeOf_of_documented (op := 0x49) nops rfl, rfl⟩
theorem OpcodeShape.eorAbs (addr : Addr) : OpcodeShape.Statement (.eorAbs addr) :=
  fun nops _ => ⟨.three .eorAbs, shapeOf_of_documented (op := 0x4D) nops rfl, congrArg Instr.eorAbs (Machine.word_hi_lo addr)⟩
theorem OpcodeShape.eorIzy (p : Byte) : OpcodeShape.Statement (.eorIzy p) :=
  fun nops _ => ⟨.two .eorIzy, shapeOf_of_documented (op := 0x51) nops rfl, rfl⟩
theorem OpcodeShape.eorZpx (a : Byte) : OpcodeShape.Statement (.eorZpx a) :=
  fun nops _ => ⟨.two .eorZpx, shapeOf_of_documented (op := 0x55) nops rfl, rfl⟩
theorem OpcodeShape.eorAby (addr : Addr) : OpcodeShape.Statement (.eorAby addr) :=
  fun nops _ => ⟨.three .eorAby, shapeOf_of_documented (op := 0x59) nops rfl, congrArg Instr.eorAby (Machine.word_hi_lo addr)⟩
theorem OpcodeShape.eorAbx (addr : Addr) : OpcodeShape.Statement (.eorAbx addr) :=
  fun nops _ => ⟨.three .eorAbx, shapeOf_of_documented (op := 0x5D) nops rfl, congrArg Instr.eorAbx (Machine.word_hi_lo addr)⟩
theorem OpcodeShape.adcIzx (p : Byte) : OpcodeShape.Statement (.adcIzx p) :=
  fun nops _ => ⟨.two .adcIzx, shapeOf_of_documented (op := 0x61) nops rfl, rfl⟩
theorem OpcodeShape.adcZp (a : Byte) : OpcodeShape.Statement (.adcZp a) :=
  fun nops _ => ⟨.two .adcZp, shapeOf_of_documented (op := 0x65) nops rfl, rfl⟩
theorem OpcodeShape.adcImm (v : Byte) : OpcodeShape.Statement (.adcImm v) :=
  fun nops _ => ⟨.two .adcImm, shapeOf_of_documented (op := 0x69) nops rfl, rfl⟩
theorem OpcodeShape.adcAbs (addr : Addr) : OpcodeShape.Statement (.adcAbs addr) :=
  fun nops _ => ⟨.three .adcAbs, shapeOf_of_documented (op := 0x6D) nops rfl, congrArg Instr.adcAbs (Machine.word_hi_lo addr)⟩
theorem OpcodeShape.adcIzy (p : Byte) : OpcodeShape.Statement (.adcIzy p) :=
  fun nops _ => ⟨.two .adcIzy, shapeOf_of_documented (op := 0x71) nops rfl, rfl⟩
theorem OpcodeShape.adcZpx (a : Byte) : OpcodeShape.Statement (.adcZpx a) :=
  fun nops _ => ⟨.two .adcZpx, shapeOf_of_documented (op := 0x75) nops rfl, rfl⟩
theorem OpcodeShape.adcAby (addr : Addr) : OpcodeShape.Statement (.adcAby addr) :=
  fun nops _ => ⟨.three .adcAby, shapeOf_of_documented (op := 0x79) nops rfl, congrArg Instr.adcAby (Machine.word_hi_lo addr)⟩
theorem OpcodeShape.adcAbx (addr : Addr) : OpcodeShape.Statement (.adcAbx addr) :=
  fun nops _ => ⟨.three .adcAbx, shapeOf_of_documented (op := 0x7D) nops rfl, congrArg Instr.adcAbx (Machine.word_hi_lo addr)⟩
theorem OpcodeShape.staIzx (p : Byte) : OpcodeShape.Statement (.staIzx p) :=
  fun nops _ => ⟨.two .staIzx, shapeOf_of_documented (op := 0x81) nops rfl, rfl⟩
theorem OpcodeShape.staZp (a : Byte) : OpcodeShape.Statement (.staZp a) :=
  fun nops _ => ⟨.two .staZp, shapeOf_of_documented (op := 0x85) nops rfl, rfl⟩
theorem OpcodeShape.staAbs (addr : Addr) : OpcodeShape.Statement (.staAbs addr) :=
  fun nops _ => ⟨.three .staAbs, shapeOf_of_documented (op := 0x8D) nops rfl, congrArg Instr.staAbs (Machine.word_hi_lo addr)⟩
theorem OpcodeShape.staIzy (p : Byte) : OpcodeShape.Statement (.staIzy p) :=
  fun nops _ => ⟨.two .staIzy, shapeOf_of_documented (op := 0x91) nops rfl, rfl⟩
theorem OpcodeShape.staZpx (a : Byte) : OpcodeShape.Statement (.staZpx a) :=
  fun nops _ => ⟨.two .staZpx, shapeOf_of_documented (op := 0x95) nops rfl, rfl⟩
theorem OpcodeShape.staAby (addr : Addr) : OpcodeShape.Statement (.staAby addr) :=
  fun nops _ => ⟨.three .staAby, shapeOf_of_documented (op := 0x99) nops rfl, congrArg Instr.staAby (Machine.word_hi_lo addr)⟩
theorem OpcodeShape.staAbx (addr : Addr) : OpcodeShape.Statement (.staAbx addr) :=
  fun nops _ => ⟨.three .staAbx, shapeOf_of_documented (op := 0x9D) nops rfl, congrArg Instr.staAbx (Machine.word_hi_lo addr)⟩
theorem OpcodeShape.ldaIzx (p : Byte) : OpcodeShape.Statement (.ldaIzx p) :=
  fun nops _ => ⟨.two .ldaIzx, shapeOf_of_documented (op := 0xA1) nops rfl, rfl⟩
theorem OpcodeShape.ldaZp (a : Byte) : OpcodeShape.Statement (.ldaZp a) :=
  fun nops _ => ⟨.two .ldaZp, shapeOf_of_documented (op := 0xA5) nops rfl, rfl⟩
theorem OpcodeShape.ldaImm (v : Byte) : OpcodeShape.Statement (.ldaImm v) :=
  fun nops _ => ⟨.two .ldaImm, shapeOf_of_documented (op := 0xA9) nops rfl, rfl⟩
theorem OpcodeShape.ldaAbs (addr : Addr) : OpcodeShape.Statement (.ldaAbs addr) :=
  fun nops _ => ⟨.three .ldaAbs, shapeOf_of_documented (op := 0xAD) nops rfl, congrArg Instr.ldaAbs (Machine.word_hi_lo addr)⟩
theorem OpcodeShape.ldaIzy (p : Byte) : OpcodeShape.Statement (.ldaIzy p) :=
  fun nops _ => ⟨.two .ldaIzy, shapeOf_of_documented (op := 0xB1) nops rfl, rfl⟩
theorem OpcodeShape.ldaZpx (a : Byte) : OpcodeShape.Statement (.ldaZpx a) :=
  fun nops _ => ⟨.two .ldaZpx, shapeOf_of_documented (op := 0xB5) nops rfl, rfl⟩
theorem OpcodeShape.ldaAby (addr : Addr) : OpcodeShape.Statement (.ldaAby addr) :=
  fun nops _ => ⟨.three .ldaAby, shapeOf_of_documented (op := 0xB9) nops rfl, congrArg Instr.ldaAby (Machine.word_hi_lo addr)⟩
theorem OpcodeShape.ldaAbx (addr : Addr) : OpcodeShape.Statement (.ldaAbx addr) :=
  fun nops _ => ⟨.three .ldaAbx, shapeOf_of_documented (op := 0xBD) nops rfl, congrArg Instr.ldaAbx (Machine.word_hi_lo addr)⟩
theorem OpcodeShape.cmpIzx (p : Byte) : OpcodeShape.Statement (.cmpIzx p) :=
  fun nops _ => ⟨.two .cmpIzx, shapeOf_of_documented (op := 0xC1) nops rfl, rfl⟩
theorem OpcodeShape.cmpZp (a : Byte) : OpcodeShape.Statement (.cmpZp a) :=
  fun nops _ => ⟨.two .cmpZp, shapeOf_of_documented (op := 0xC5) nops rfl, rfl⟩
theorem OpcodeShape.cmpImm (v : Byte) : OpcodeShape.Statement (.cmpImm v) :=
  fun nops _ => ⟨.two .cmpImm, shapeOf_of_documented (op := 0xC9) nops rfl, rfl⟩
theorem OpcodeShape.cmpAbs (addr : Addr) : OpcodeShape.Statement (.cmpAbs addr) :=
  fun nops _ => ⟨.three .cmpAbs, shapeOf_of_documented (op := 0xCD) nops rfl, congrArg Instr.cmpAbs (Machine.word_hi_lo addr)⟩
theorem OpcodeShape.cmpIzy (p : Byte) : OpcodeShape.Statement (.cmpIzy p) :=
  fun nops _ => ⟨.two .cmpIzy, shapeOf_of_documented (op := 0xD1) nops rfl, rfl⟩
theorem OpcodeShape.cmpZpx (a : Byte) : OpcodeShape.Statement (.cmpZpx a) :=
  fun nops _ => ⟨.two .cmpZpx, shapeOf_of_documented (op := 0xD5) nops rfl, rfl⟩
theorem OpcodeShape.cmpAby (addr : Addr) : OpcodeShape.Statement (.cmpAby addr) :=
  fun nops _ => ⟨.three .cmpAby, shapeOf_of_documented (op := 0xD9) nops rfl, congrArg Instr.cmpAby (Machine.word_hi_lo addr)⟩
theorem OpcodeShape.cmpAbx (addr : Addr) : OpcodeShape.Statement (.cmpAbx addr) :=
  fun nops _ => ⟨.three .cmpAbx, shapeOf_of_documented (op := 0xDD) nops rfl, congrArg Instr.cmpAbx (Machine.word_hi_lo addr)⟩
theorem OpcodeShape.sbcIzx (p : Byte) : OpcodeShape.Statement (.sbcIzx p) :=
  fun nops _ => ⟨.two .sbcIzx, shapeOf_of_documented (op := 0xE1) nops rfl, rfl⟩
theorem OpcodeShape.sbcZp (a : Byte) : OpcodeShape.Statement (.sbcZp a) :=
  fun nops _ => ⟨.two .sbcZp, shapeOf_of_documented (op := 0xE5) nops rfl, rfl⟩
theorem OpcodeShape.sbcImm (v : Byte) : OpcodeShape.Statement (.sbcImm v) :=
  fun nops _ => ⟨.two .sbcImm, shapeOf_of_documented (op := 0xE9) nops rfl, rfl⟩
theorem OpcodeShape.sbcAbs (addr : Addr) : OpcodeShape.Statement (.sbcAbs addr) :=
  fun nops _ => ⟨.three .sbcAbs, shapeOf_of_documented (op := 0xED) nops rfl, congrArg Instr.sbcAbs (Machine.word_hi_lo addr)⟩
theorem OpcodeShape.sbcIzy (p : Byte) : OpcodeShape.Statement (.sbcIzy p) :=
  fun nops _ => ⟨.two .sbcIzy, shapeOf_of_documented (op := 0xF1) nops rfl, rfl⟩
theorem OpcodeShape.sbcZpx (a : Byte) : OpcodeShape.Statement (.sbcZpx a) :=
  fun nops _ => ⟨.two .sbcZpx, shapeOf_of_documented (op := 0xF5) nops rfl, rfl⟩
theorem OpcodeShape.sbcAby (addr : Addr) : OpcodeShape.Statement (.sbcAby addr) :=
  fun nops _ => ⟨.three .sbcAby, shapeOf_of_documented (op := 0xF9) nops rfl, congrArg Instr.sbcAby (Machine.word_hi_lo addr)⟩
theorem OpcodeShape.sbcAbx (addr : Addr) : OpcodeShape.Statement (.sbcAbx addr) :=
  fun nops _ => ⟨.three .sbcAbx, shapeOf_of_documented (op := 0xFD) nops rfl, congrArg Instr.sbcAbx (Machine.word_hi_lo addr)⟩
theorem OpcodeShape.aslZp (a : Byte) : OpcodeShape.Statement (.aslZp a) :=
  fun nops _ => ⟨.two .aslZp, shapeOf_of_documented (op := 0x06) nops rfl, rfl⟩
theorem OpcodeShape.aslAcc : OpcodeShape.Statement .aslAcc :=
  fun nops _ => ⟨.one .aslAcc, shapeOf_of_documented (op := 0x0A) nops rfl, rfl⟩
theorem OpcodeShape.aslAbs (addr : Addr) : OpcodeShape.Statement (.aslAbs addr) :=
  fun nops _ => ⟨.three .aslAbs, shapeOf_of_documented (op := 0x0E) nops rfl, congrArg Instr.aslAbs (Machine.word_hi_lo addr)⟩
theorem OpcodeShape.aslZpx (a : Byte) : OpcodeShape.Statement (.aslZpx a) :=
  fun nops _ => ⟨.two .aslZpx, shapeOf_of_documented (op := 0x16) nops rfl, rfl⟩
theorem OpcodeShape.aslAbx (addr : Addr) : OpcodeShape.Statement (.aslAbx addr) :=
  fun nops _ => ⟨.three .aslAbx, shapeOf_of_documented (op := 0x1E) nops rfl, congrArg Instr.aslAbx (Machine.word_hi_lo addr)⟩
theorem OpcodeShape.rolZp (a : Byte) : OpcodeShape.Statement (.rolZp a) :=
  fun nops _ => ⟨.two .rolZp, shapeOf_of_documented (op := 0x26) nops rfl, rfl⟩
theorem OpcodeShape.rolAcc : OpcodeShape.Statement .rolAcc :=
  fun nops _ => ⟨.one .rolAcc, shapeOf_of_documented (op := 0x2A) nops rfl, rfl⟩
theorem OpcodeShape.rolAbs (addr : Addr) : OpcodeShape.Statement (.rolAbs addr) :=
  fun nops _ => ⟨.three .rolAbs, shapeOf_of_documented (op := 0x2E) nops rfl, congrArg Instr.rolAbs (Machine.word_hi_lo addr)⟩
theorem OpcodeShape.rolZpx (a : Byte) : OpcodeShape.Statement (.rolZpx a) :=
  fun nops _ => ⟨.two .rolZpx, shapeOf_of_documented (op := 0x36) nops rfl, rfl⟩
theorem OpcodeShape.rolAbx (addr : Addr) : OpcodeShape.Statement (.rolAbx addr) :=
  fun nops _ => ⟨.three .rolAbx, shapeOf_of_documented (op := 0x3E) nops rfl, congrArg Instr.rolAbx (Machine.word_hi_lo addr)⟩
theorem OpcodeShape.lsrZp (a : Byte) : OpcodeShape.Statement (.lsrZp a) :=
  fun nops _ => ⟨.two .lsrZp, shapeOf_of_documented (op := 0x46) nops rfl, rfl⟩
theorem OpcodeShape.lsrAcc : OpcodeShape.Statement .lsrAcc :=
  fun nops _ => ⟨.one .lsrAcc, shapeOf_of_documented (op := 0x4A) nops rfl, rfl⟩
theorem OpcodeShape.lsrAbs (addr : Addr) : OpcodeShape.Statement (.lsrAbs addr) :=
  fun nops _ => ⟨.three .lsrAbs, shapeOf_of_documented (op := 0x4E) nops rfl, congrArg Instr.lsrAbs (Machine.word_hi_lo addr)⟩
theorem OpcodeShape.lsrZpx (a : Byte) : OpcodeShape.Statement (.lsrZpx a) :=
  fun nops _ => ⟨.two .lsrZpx, shapeOf_of_documented (op := 0x56) nops rfl, rfl⟩
theorem OpcodeShape.lsrAbx (addr : Addr) : OpcodeShape.Statement (.lsrAbx addr) :=
  fun nops _ => ⟨.three .lsrAbx, shapeOf_of_documented (op := 0x5E) nops rfl, congrArg Instr.lsrAbx (Machine.word_hi_lo addr)⟩
theorem OpcodeShape.rorZp (a : Byte) : OpcodeShape.Statement (.rorZp a) :=
  fun nops _ => ⟨.two .rorZp, shapeOf_of_documented (op := 0x66) nops rfl, rfl⟩
theorem OpcodeShape.rorAcc : OpcodeShape.Statement .rorAcc :=
  fun nops _ => ⟨.one .rorAcc, shapeOf_of_documented (op := 0x6A) nops rfl, rfl⟩
theorem OpcodeShape.rorAbs (addr : Addr) : OpcodeShape.Statement (.rorAbs addr) :=
  fun nops _ => ⟨.three .rorAbs, shapeOf_of_documented (op := 0x6E) nops rfl, congrArg Instr.rorAbs (Machine.word_hi_lo addr)⟩
theorem OpcodeShape.rorZpx (a : Byte) : OpcodeShape.Statement (.rorZpx a) :=
  fun nops _ => ⟨.two .rorZpx, shapeOf_of_documented (op := 0x76) nops rfl, rfl⟩
theorem OpcodeShape.rorAbx (addr : Addr) : OpcodeShape.Statement (.rorAbx addr) :=
  fun nops _ => ⟨.three .rorAbx, shapeOf_of_documented (op := 0x7E) nops rfl, congrArg Instr.rorAbx (Machine.word_hi_lo addr)⟩
theorem OpcodeShape.stxZp (a : Byte) : OpcodeShape.Statement (.stxZp a) :=
  fun nops _ => ⟨.two .stxZp, shapeOf_of_documented (op := 0x86) nops rfl, rfl⟩
theorem OpcodeShape.stxAbs (addr : Addr) : OpcodeShape.Statement (.stxAbs addr) :=
  fun nops _ => ⟨.three .stxAbs, shapeOf_of_documented (op := 0x8E) nops rfl, congrArg Instr.stxAbs (Machine.word_hi_lo addr)⟩
theorem OpcodeShape.stxZpy (a : Byte) : OpcodeShape.Statement (.stxZpy a) :=
  fun nops _ => ⟨.two .stxZpy, shapeOf_of_documented (op := 0x96) nops rfl, rfl⟩
theorem OpcodeShape.ldxImm (v : Byte) : OpcodeShape.Statement (.ldxImm v) :=
  fun nops _ => ⟨.two .ldxImm, shapeOf_of_documented (op := 0xA2) nops rfl, rfl⟩
theorem OpcodeShape.ldxZp (a : Byte) : OpcodeShape.Statement (.ldxZp a) :=
  fun nops _ => ⟨.two .ldxZp, shapeOf_of_documented (op := 0xA6) nops rfl, rfl⟩
theorem OpcodeShape.ldxAbs (addr : Addr) : OpcodeShape.Statement (.ldxAbs addr) :=
  fun nops _ => ⟨.three .ldxAbs, shapeOf_of_documented (op := 0xAE) nops rfl, congrArg Instr.ldxAbs (Machine.word_hi_lo addr)⟩
theorem OpcodeShape.ldxZpy (a : Byte) : OpcodeShape.Statement (.ldxZpy a) :=
  fun nops _ => ⟨.two .ldxZpy, shapeOf_of_documented (op := 0xB6) nops rfl, rfl⟩
theorem OpcodeShape.ldxAby (addr : Addr) : OpcodeShape.Statement (.ldxAby addr) :=
  fun nops _ => ⟨.three .ldxAby, shapeOf_of_documented (op := 0xBE) nops rfl, congrArg Instr.ldxAby (Machine.word_hi_lo addr)⟩
theorem OpcodeShape.decZp (a : Byte) : OpcodeShape.Statement (.decZp a) :=
  fun nops _ => ⟨.two .decZp, shapeOf_of_documented (op := 0xC6) nops rfl, rfl⟩
theorem OpcodeShape.decAbs (addr : Addr) : OpcodeShape.Statement (.decAbs addr) :=
  fun nops _ => ⟨.three .decAbs, shapeOf_of_documented (op := 0xCE) nops rfl, congrArg Instr.decAbs (Machine.word_hi_lo addr)⟩
theorem OpcodeShape.decZpx (a : Byte) : OpcodeShape.Statement (.decZpx a) :=
  fun nops _ => ⟨.two .decZpx, shapeOf_of_documented (op := 0xD6) nops rfl, rfl⟩
theorem OpcodeShape.decAbx (addr : Addr) : OpcodeShape.Statement (.decAbx addr) :=
  fun nops _ => ⟨.three .decAbx, shapeOf_of_documented (op := 0xDE) nops rfl, congrArg Instr.decAbx (Machine.word_hi_lo addr)⟩
theorem OpcodeShape.incZp (a : Byte) : OpcodeShape.Statement (.incZp a) :=
  fun nops _ => ⟨.two .incZp, shapeOf_of_documented (op := 0xE6) nops rfl, rfl⟩
theorem OpcodeShape.incAbs (addr : Addr) : OpcodeShape.Statement (.incAbs addr) :=
  fun nops _ => ⟨.three .incAbs, shapeOf_of_documented (op := 0xEE) nops rfl, congrArg Instr.incAbs (Machine.word_hi_lo addr)⟩
theorem OpcodeShape.incZpx (a : Byte) : OpcodeShape.Statement (.incZpx a) :=
  fun nops _ => ⟨.two .incZpx, shapeOf_of_documented (op := 0xF6) nops rfl, rfl⟩
theorem OpcodeShape.incAbx (addr : Addr) : OpcodeShape.Statement (.incAbx addr) :=
  fun nops _ => ⟨.three .incAbx, shapeOf_of_documented (op := 0xFE) nops rfl, congrArg Instr.incAbx (Machine.word_hi_lo addr)⟩
theorem OpcodeShape.bitZp (a : Byte) : OpcodeShape.Statement (.bitZp a) :=
  fun nops _ => ⟨.two .bitZp, shapeOf_of_documented (op := 0x24) nops rfl, rfl⟩
theorem OpcodeShape.bitAbs (addr : Addr) : OpcodeShape.Statement (.bitAbs addr) :=
  fun nops _ => ⟨.three .bitAbs, shapeOf_of_documented (op := 0x2C) nops rfl, congrArg Instr.bitAbs (Machine.word_hi_lo addr)⟩
theorem OpcodeShape.jmpAbs (addr : Addr) : OpcodeShape.Statement (.jmpAbs addr) :=
  fun nops _ => ⟨.three .jmpAbs, shapeOf_of_documented (op := 0x4C) nops rfl, congrArg Instr.jmpAbs (Machine.word_hi_lo addr)⟩
theorem OpcodeShape.jmpInd (addr : Addr) : OpcodeShape.Statement (.jmpInd addr) :=
  fun nops _ => ⟨.three .jmpInd, shapeOf_of_documented (op := 0x6C) nops rfl, congrArg Instr.jmpInd (Machine.word_hi_lo addr)⟩
theorem OpcodeShape.styZp (a : Byte) : OpcodeShape.Statement (.styZp a) :=
  fun nops _ => ⟨.two .styZp, shapeOf_of_documented (op := 0x84) nops rfl, rfl⟩
theorem OpcodeShape.styAbs (addr : Addr) : OpcodeShape.Statement (.styAbs addr) :=
  fun nops _ => ⟨.three .styAbs, shapeOf_of_documented (op := 0x8C) nops rfl, congrArg Instr.styAbs (Machine.word_hi_lo addr)⟩
theorem OpcodeShape.styZpx (a : Byte) : OpcodeShape.Statement (.styZpx a) :=
  fun nops _ => ⟨.two .styZpx, shapeOf_of_documented (op := 0x94) nops rfl, rfl⟩
theorem OpcodeShape.ldyImm (v : Byte) : OpcodeShape.Statement (.ldyImm v) :=
  fun nops _ => ⟨.two .ldyImm, shapeOf_of_documented (op := 0xA0) nops rfl, rfl⟩
theorem OpcodeShape.ldyZp (a : Byte) : OpcodeShape.Statement (.ldyZp a) :=
  fun nops _ => ⟨.two .ldyZp, shapeOf_of_documented (op := 0xA4) nops rfl, rfl⟩
theorem OpcodeShape.ldyAbs (addr : Addr) : OpcodeShape.Statement (.ldyAbs addr) :=
  fun nops _ => ⟨.three .ldyAbs, shapeOf_of_documented (op := 0xAC) nops rfl, congrArg Instr.ldyAbs (Machine.word_hi_lo addr)⟩
theorem OpcodeShape.ldyZpx (a : Byte) : OpcodeShape.Statement (.ldyZpx a) :=
  fun nops _ => ⟨.two .ldyZpx, shapeOf_of_documented (op := 0xB4) nops rfl, rfl⟩
theorem OpcodeShape.ldyAbx (addr : Addr) : OpcodeShape.Statement (.ldyAbx addr) :=
  fun nops _ => ⟨.three .ldyAbx, shapeOf_of_documented (op := 0xBC) nops rfl, congrArg Instr.ldyAbx (Machine.word_hi_lo addr)⟩
theorem OpcodeShape.cpyImm (v : Byte) : OpcodeShape.Statement (.cpyImm v) :=
  fun nops _ => ⟨.two .cpyImm, shapeOf_of_documented (op := 0xC0) nops rfl, rfl⟩
theorem OpcodeShape.cpyZp (a : Byte) : OpcodeShape.Statement (.cpyZp a) :=
  fun nops _ => ⟨.two .cpyZp, shapeOf_of_documented (op := 0xC4) nops rfl, rfl⟩
theorem OpcodeShape.cpyAbs (addr : Addr) : OpcodeShape.Statement (.cpyAbs addr) :=
  fun nops _ => ⟨.three .cpyAbs, shapeOf_of_documented (op := 0xCC) nops rfl, congrArg Instr.cpyAbs (Machine.word_hi_lo addr)⟩
theorem OpcodeShape.cpxImm (v : Byte) : OpcodeShape.Statement (.cpxImm v) :=
  fun nops _ => ⟨.two .cpxImm, shapeOf_of_documented (op := 0xE0) nops rfl, rfl⟩
theorem OpcodeShape.cpxZp (a : Byte) : OpcodeShape.Statement (.cpxZp a) :=
  fun nops _ => ⟨.two .cpxZp, shapeOf_of_documented (op := 0xE4) nops rfl, rfl⟩
theorem OpcodeShape.cpxAbs (addr : Addr) : OpcodeShape.Statement (.cpxAbs addr) :=
  fun nops _ => ⟨.three .cpxAbs, shapeOf_of_documented (op := 0xEC) nops rfl, congrArg Instr.cpxAbs (Machine.word_hi_lo addr)⟩
theorem OpcodeShape.bpl (d : Byte) : OpcodeShape.Statement (.bpl d) :=
  fun nops _ => ⟨.two .bpl, shapeOf_of_documented (op := 0x10) nops rfl, rfl⟩
theorem OpcodeShape.bmi (d : Byte) : OpcodeShape.Statement (.bmi d) :=
  fun nops _ => ⟨.two .bmi, shapeOf_of_documented (op := 0x30) nops rfl, rfl⟩
theorem OpcodeShape.bvc (d : Byte) : OpcodeShape.Statement (.bvc d) :=
  fun nops _ => ⟨.two .bvc, shapeOf_of_documented (op := 0x50) nops rfl, rfl⟩
theorem OpcodeShape.bvs (d : Byte) : OpcodeShape.Statement (.bvs d) :=
  fun nops _ => ⟨.two .bvs, shapeOf_of_documented (op := 0x70) nops rfl, rfl⟩
theorem OpcodeShape.bcc (d : Byte) : OpcodeShape.Statement (.bcc d) :=
  fun nops _ => ⟨.two .bcc, shapeOf_of_documented (op := 0x90) nops rfl, rfl⟩
theorem OpcodeShape.bcs (d : Byte) : OpcodeShape.Statement (.bcs d) :=
  fun nops _ => ⟨.two .bcs, shapeOf_of_documented (op := 0xB0) nops rfl, rfl⟩
theorem OpcodeShape.bne (d : Byte) : OpcodeShape.Statement (.bne d) :=
  fun nops _ => ⟨.two .bne, shapeOf_of_documented (op := 0xD0) nops rfl, rfl⟩
theorem OpcodeShape.beq (d : Byte) : OpcodeShape.Statement (.beq d) :=
  fun nops _ => ⟨.two .beq, shapeOf_of_documented (op := 0xF0) nops rfl, rfl⟩
theorem OpcodeShape.brk : OpcodeShape.Statement .brk :=
  fun nops _ => ⟨.one .brk, shapeOf_of_documented (op := 0x00) nops rfl, rfl⟩
theorem OpcodeShape.jsr (addr : Addr) : OpcodeShape.Statement (.jsr addr) :=
  fun nops _ => ⟨.three .jsr, shapeOf_of_documented (op := 0x20) nops rfl, congrArg Instr.jsr (Machine.word_hi_lo addr)⟩
theorem OpcodeShape.rti : OpcodeShape.Statement .rti :=
  fun nops _ => ⟨.one .rti, shapeOf_of_documented (op := 0x40) nops rfl, rfl⟩
theorem OpcodeShape.rts : OpcodeShape.Statement .rts :=
  fun nops _ => ⟨.one .rts, shapeOf_of_documented (op := 0x60) nops rfl, rfl⟩
theorem OpcodeShape.nop : OpcodeShape.Statement .nop :=
  fun nops _ => ⟨.one .nop, shapeOf_of_documented (op := 0xEA) nops rfl, rfl⟩
theorem OpcodeShape.php : OpcodeShape.Statement .php :=
  fun nops _ => ⟨.one .php, shapeOf_of_documented (op := 0x08) nops rfl, rfl⟩
theorem OpcodeShape.plp : OpcodeShape.Statement .plp :=
  fun nops _ => ⟨.one .plp, shapeOf_of_documented (op := 0x28) nops rfl, rfl⟩
theorem OpcodeShape.pha : OpcodeShape.Statement .pha :=
  fun nops _ => ⟨.one .pha, shapeOf_of_documented (op := 0x48) nops rfl, rfl⟩
theorem OpcodeShape.pla : OpcodeShape.Statement .pla :=
  fun nops _ => ⟨.one .pla, shapeOf_of_documented (op := 0x68) nops rfl, rfl⟩
theorem OpcodeShape.tay : OpcodeShape.Statement .tay :=
  fun nops _ => ⟨.one .tay, shapeOf_of_documented (op := 0xA8) nops rfl, rfl⟩
theorem OpcodeShape.tya : OpcodeShape.Statement .tya :=
  fun nops _ => ⟨.one .tya, shapeOf_of_documented (op := 0x98) nops rfl, rfl⟩
theorem OpcodeShape.txa : OpcodeShape.Statement .txa :=
  fun nops _ => ⟨.one .txa, shapeOf_of_documented (op := 0x8A) nops rfl, rfl⟩
theorem OpcodeShape.tax : OpcodeShape.Statement .tax :=
  fun nops _ => ⟨.one .tax, shapeOf_of_documented (op := 0xAA) nops rfl, rfl⟩
theorem OpcodeShape.txs : OpcodeShape.Statement .txs :=
  fun nops _ => ⟨.one .txs, shapeOf_of_documented (op := 0x9A) nops rfl, rfl⟩
theorem OpcodeShape.tsx : OpcodeShape.Statement .tsx :=
  fun nops _ => ⟨.one .tsx, shapeOf_of_documented (op := 0xBA) nops rfl, rfl⟩
theorem OpcodeShape.dey : OpcodeShape.Statement .dey :=
  fun nops _ => ⟨.one .dey, shapeOf_of_documented (op := 0x88) nops rfl, rfl⟩
theorem OpcodeShape.iny : OpcodeShape.Statement .iny :=
  fun nops _ => ⟨.one .iny, shapeOf_of_documented (op := 0xC8) nops rfl, rfl⟩
theorem OpcodeShape.inx : OpcodeShape.Statement .inx :=
  fun nops _ => ⟨.one .inx, shapeOf_of_documented (op := 0xE8) nops rfl, rfl⟩
theorem OpcodeShape.dex : OpcodeShape.Statement .dex :=
  fun nops _ => ⟨.one .dex, shapeOf_of_documented (op := 0xCA) nops rfl, rfl⟩
theorem OpcodeShape.clc : OpcodeShape.Statement .clc :=
  fun nops _ => ⟨.one .clc, shapeOf_of_documented (op := 0x18) nops rfl, rfl⟩
theorem OpcodeShape.sec : OpcodeShape.Statement .sec :=
  fun nops _ => ⟨.one .sec, shapeOf_of_documented (op := 0x38) nops rfl, rfl⟩
theorem OpcodeShape.cli : OpcodeShape.Statement .cli :=
  fun nops _ => ⟨.one .cli, shapeOf_of_documented (op := 0x58) nops rfl, rfl⟩
theorem OpcodeShape.sei : OpcodeShape.Statement .sei :=
  fun nops _ => ⟨.one .sei, shapeOf_of_documented (op := 0x78) nops rfl, rfl⟩
theorem OpcodeShape.clv : OpcodeShape.Statement .clv :=
  fun nops _ => ⟨.one .clv, shapeOf_of_documented (op := 0xB8) nops rfl, rfl⟩
theorem OpcodeShape.cld : OpcodeShape.Statement .cld :=
  fun nops _ => ⟨.one .cld, shapeOf_of_documented (op := 0xD8) nops rfl, rfl⟩
theorem OpcodeShape.sed : OpcodeShape.Statement .sed :=
  fun nops _ => ⟨.one .sed, shapeOf_of_documented (op := 0xF8) nops rfl, rfl⟩
theorem OpcodeShape.nopStar04 (operand : Byte) : OpcodeShape.Statement (.nopStar04 operand) :=
  fun _ h => ⟨.two .nopStar04, shapeOf_of_default (op := 0x04) rfl (eq_of_beq h) rfl rfl, rfl⟩
theorem OpcodeShape.nopStar0C (addr : Addr) : OpcodeShape.Statement (.nopStar0C addr) :=
  fun _ h => ⟨.three .nopStar0C, shapeOf_of_default (op := 0x0C) rfl (eq_of_beq h) rfl rfl, congrArg Instr.nopStar0C (Machine.word_hi_lo addr)⟩
theorem OpcodeShape.nopStar1A : OpcodeShape.Statement .nopStar1A :=
  fun _ h => ⟨.one .nopStar1A, shapeOf_of_default (op := 0x1A) rfl (eq_of_beq h) rfl rfl, rfl⟩
theorem OpcodeShape.nopStar3A : OpcodeShape.Statement .nopStar3A :=
  fun _ h => ⟨.one .nopStar3A, shapeOf_of_default (op := 0x3A) rfl (eq_of_beq h) rfl rfl, rfl⟩
theorem OpcodeShape.nopStar44 (operand : Byte) : OpcodeShape.Statement (.nopStar44 operand) :=
  fun _ h => ⟨.two .nopStar44, shapeOf_of_default (op := 0x44) rfl (eq_of_beq h) rfl rfl, rfl⟩
theorem OpcodeShape.nopStar5A : OpcodeShape.Statement .nopStar5A :=
  fun _ h => ⟨.one .nopStar5A, shapeOf_of_default (op := 0x5A) rfl (eq_of_beq h) rfl rfl, rfl⟩
theorem OpcodeShape.nopStar64 (operand : Byte) : OpcodeShape.Statement (.nopStar64 operand) :=
  fun _ h => ⟨.two .nopStar64, shapeOf_of_default (op := 0x64) rfl (eq_of_beq h) rfl rfl, rfl⟩
theorem OpcodeShape.nopStar7A : OpcodeShape.Statement .nopStar7A :=
  fun _ h => ⟨.one .nopStar7A, shapeOf_of_default (op := 0x7A) rfl (eq_of_beq h) rfl rfl, rfl⟩
theorem OpcodeShape.nopStarDA : OpcodeShape.Statement .nopStarDA :=
  fun _ h => ⟨.one .nopStarDA, shapeOf_of_default (op := 0xDA) rfl (eq_of_beq h) rfl rfl, rfl⟩
theorem OpcodeShape.nopStarFA : OpcodeShape.Statement .nopStarFA :=
  fun _ h => ⟨.one .nopStarFA, shapeOf_of_default (op := 0xFA) rfl (eq_of_beq h) rfl rfl, rfl⟩

theorem OpcodeShape.nopStarOther (op : Byte) (e : NopEntry) : OpcodeShape.Statement (.nopStarOther op e) := by
  intro nops h
  rw [nopStarOther_wf] at h
  obtain ⟨⟨⟨hd, ⟨-, h3⟩, hr⟩, hl⟩, he⟩ := h
  refine ⟨nopShape op e, by simp [shapeOf, opcode, hd, hl], ?_⟩
  cases hr' : e.readsOperand with
  | false => simp [nopShape_unread he hr', readsAs, operandBytes]
  | true =>
    have h23 : e.length = 2 ∨ e.length = 3 := by
      rw [hr'] at hr
      rcases hr with hr | hr
      · cases hr
      · omega
    rcases h23 with hl' | hl'
    · simp [nopShape_two he hr' hl', readsAs, operandBytes, hl']
    · simp [nopShape_three he hr' hl', readsAs, operandBytes, hl']

end Sys2Proof.Laws
end

