-- ==== Sys2Proof/Laws/PpuSide.lean ====
section
/-! SUPPORT. What the processor's bus can do to the picture unit and to the cartridge: the position, the flags of the sprite pipeline, the slots and secondary
OAM are out of its reach; the arrays stay canonical and within their sizes. -/

namespace Sys2Proof.Machine

/-- What a bus access leaves alone in the picture unit. -/
structure Ppu.SamePipeline (p q : Ppu) : Prop where
  position : q.position = p.position
  sprite0Hit : q.sprite0Hit = p.sprite0Hit
  spriteOverflow : q.spriteOverflow = p.spriteOverflow
  secondaryOam : q.secondaryOam = p.secondaryOam
  slots : q.slots = p.slots
  sprCount : q.sprCount = p.sprCount
  secCount : q.secCount = p.secCount
  spr0InSlot0 : q.spr0InSlot0 = p.spr0InSlot0
  secHasSpr0 : q.secHasSpr0 = p.secHasSpr0

theorem Ppu.SamePipeline.refl (p : Ppu) : p.SamePipeline p := ⟨rfl, rfl, rfl, rfl, rfl, rfl, rfl, rfl, rfl⟩

theorem Ppu.SamePipeline.trans {p q r : Ppu} (h : p.SamePipeline q) (h' : q.SamePipeline r) : p.SamePipeline r :=
  ⟨h'.1.trans h.1, h'.2.trans h.2, h'.3.trans h.3, h'.4.trans h.4, h'.5.trans h.5, h'.6.trans h.6, h'.7.trans h.7, h'.8.trans h.8, h'.9.trans h.9⟩

theorem State.cpuRead_samePipeline (s : State) (a : Addr) : s.ppu.SamePipeline (s.cpuRead a).2.ppu := by
  obtain ⟨vb, w, va, h⟩ := s.cpuRead_ppu a
  rw [h]
  exact ⟨rfl, rfl, rfl, rfl, rfl, rfl, rfl, rfl, rfl⟩

theorem State.ppuWrite_samePipeline (s : State) (a : Addr) (v : Byte) : s.ppu.SamePipeline (s.ppuWrite a v).ppu := by
  unfold State.ppuWrite
  split <;> exact ⟨rfl, rfl, rfl, rfl, rfl, rfl, rfl, rfl, rfl⟩

theorem State.regWrite_samePipeline (s : State) (r : PpuReg) (v : Byte) : s.ppu.SamePipeline (s.regWrite r v).ppu := by
  cases r <;> simp only [State.regWrite, State.regAction]
  case data =>
    have h := State.ppuWrite_samePipeline (s.setPpu { s.ppu with lastWrite := v }) s.ppu.vramAddr v
    exact ⟨h.1, h.2, h.3, h.4, h.5, h.6, h.7, h.8, h.9⟩
  all_goals repeat' split
  all_goals exact ⟨rfl, rfl, rfl, rfl, rfl, rfl, rfl, rfl, rfl⟩

theorem State.oamDmaByte_samePipeline (s : State) (v i : Byte) : s.ppu.SamePipeline (s.oamDmaByte v i).ppu := by
  have h := s.cpuRead_samePipeline (word v i)
  exact ⟨h.1, h.2, h.3, h.4, h.5, h.6, h.7, h.8, h.9⟩

theorem State.cpuWrite_samePipeline (s : State) (a : Addr) (v : Byte) : s.ppu.SamePipeline (s.cpuWrite a v).ppu := by
  unfold State.cpuWrite
  split <;> try exact .refl _
  · exact s.regWrite_samePipeline _ v
  · exact State.oamDmaLast_induct (P := fun t => s.ppu.SamePipeline t.ppu) (fun t i h => h.trans (t.oamDmaByte_samePipeline v i)) 256 s (.refl _)

/-! The cartridge under a bus write. -/

theorem State.ppuWrite_cart (s : State) (a : Addr) (v : Byte) : (s.ppuWrite a v).cart = s.cart ∨ ∃ b, (s.ppuWrite a v).cart = s.cart.ppuWrite b v := by
  unfold State.ppuWrite
  split
  · exact .inr ⟨_, rfl⟩
  · exact .inl rfl
  · exact .inl rfl

theorem State.regWrite_cart (s : State) (r : PpuReg) (v : Byte) : (s.regWrite r v).cart = s.cart ∨ ∃ b, (s.regWrite r v).cart = s.cart.ppuWrite b v := by
  cases r <;> simp only [State.regWrite, State.regAction]
  case data => exact State.ppuWrite_cart (s.setPpu { s.ppu with lastWrite := v }) s.ppu.vramAddr v
  all_goals repeat' split
  all_goals exact .inl rfl

/-- A bus write reaches the cartridge through its own window or through the data register of the picture unit. -/
theorem State.cpuWrite_cart (s : State) (a : Addr) (v : Byte) :
    (s.cpuWrite a v).cart = s.cart ∨ (regionOf a = .cartridge ∧ (s.cpuWrite a v).cart = s.cart.cpuWrite a v)
      ∨ (∃ r, regionOf a = .ppu r) ∧ ∃ b, (s.cpuWrite a v).cart = s.cart.ppuWrite b v := by
  unfold State.cpuWrite
  split
  case h_2 r hr =>
    rcases s.regWrite_cart r v with h | h
    · exact .inl h
    · exact .inr (.inr ⟨⟨r, hr⟩, h⟩)
  case h_3 => exact .inl (State.oamDma_cart s v)
  case h_8 h => exact .inr (.inl ⟨h, rfl⟩)
  all_goals exact .inl rfl

/-! The invariant under a bus access. -/

theorem Ppu.Good.congr {p q : Ppu} {n : Nat} (h : p.Good n) (hp : p.SamePipeline q) (oam : q.oam.fits 256 = true)
    (palette : q.palette.fits 32 = true) (nametable : q.nametable.fits n = true) : q.Good n := by
  obtain ⟨h1, h2, h3, h4, h5, h6, h7, h8⟩ := h
  refine ⟨by rw [hp.position]; exact h1, by rw [hp.sprCount]; exact h2, by rw [hp.secCount]; exact h3, ?_, oam, by rw [hp.secondaryOam]; exact h6,
    palette, nametable⟩
  intro k hk
  rw [hp.sprCount] at hk
  rw [hp.slots]
  exact h4 k hk

/-- The arrays of the state are canonical and within their sizes, the cartridge and the picture unit are good, the cursors bounded. -/
structure State.BusGood (s : State) : Prop where
  ram : s.ram.fits 2048 = true
  cart : s.cart.Good
  ppu : s.ppu.Good s.cart.image.nametableSize
  input1 : s.input1.cursor ≤ 8
  input2 : s.input2.cursor ≤ 8

theorem State.Inv.busGood {s : State} (h : s.Inv) : s.BusGood := ⟨h.1, h.2.1, h.2.2.1, h.2.2.2.1, h.2.2.2.2.1⟩

theorem InputDevice.read_cursor {d : InputDevice} (n : Nat) (h : d.cursor ≤ 8) : (d.read n).2.1.cursor ≤ 8 := by
  unfold InputDevice.read
  dsimp only
  repeat' split
  all_goals omega

theorem InputDevice.write_cursor {d : InputDevice} (v : Byte) (h : d.cursor ≤ 8) : (d.write v).cursor ≤ 8 := by
  unfold InputDevice.write
  dsimp only
  split
  · exact Nat.zero_le 8
  · exact h

theorem palIndex_lt (a : Nat) : palIndex a < 32 := by
  unfold palIndex
  dsimp only
  split <;> omega

theorem State.cpuRead_busGood {s : State} (h : s.BusGood) (a : Addr) : (s.cpuRead a).2.BusGood := by
  obtain ⟨vb, w, va, hp⟩ := s.cpuRead_ppu a
  refine ⟨by rw [State.cpuRead_ram]; exact h.ram, by rw [State.cpuRead_cart]; exact h.cart, ?_, ?_, ?_⟩
  · rw [State.cpuRead_cart]
    refine h.ppu.congr (s.cpuRead_samePipeline a) ?_ ?_ ?_ <;> rw [hp]
    · exact h.ppu.2.2.2.2.1
    · exact h.ppu.2.2.2.2.2.2.1
    · exact h.ppu.2.2.2.2.2.2.2
  · unfold State.cpuRead
    split
    case h_2 r _ => cases r <;> exact h.input1
    case h_4 => exact InputDevice.read_cursor s.drawn h.input1
    all_goals exact h.input1
  · unfold State.cpuRead
    split
    case h_2 r _ => cases r <;> exact h.input2
    case h_5 => exact InputDevice.read_cursor s.drawn h.input2
    all_goals exact h.input2

theorem ppuCell_nametable_lt {c : Cart} (h : c.Good) {a : Addr} {i : Nat} (hi : ppuCell c a = .nametable i) : i < c.image.nametableSize := by
  have mirror {m : Nat} (h1 : 0x2000 ≤ m) (h2 : m < 0x3000) : c.mirror m < c.image.nametableSize := Cart.mirror_lt h1 h2 h.2.2.2.2.1.1
  unfold ppuCell at hi
  dsimp only at hi
  repeat' split at hi
  all_goals simp only [PpuCell.nametable.injEq, reduceCtorEq] at hi
  all_goals rw [← hi]
  · exact mirror (by omega) (by omega)
  · exact mirror (by omega) (by omega)

theorem ppuCell_palette_lt {c : Cart} {a : Addr} {i : Nat} (hi : ppuCell c a = .palette i) : i < 32 := by
  unfold ppuCell at hi
  dsimp only at hi
  repeat' split at hi
  all_goals simp only [PpuCell.palette.injEq, reduceCtorEq] at hi
  rw [← hi]
  exact palIndex_lt _

theorem State.ppuWrite_busGood {s : State} (h : s.BusGood) (a : Addr) (v : Byte) : (s.ppuWrite a v).BusGood := by
  unfold State.ppuWrite
  split
  · rename_i m hm
    refine ⟨h.ram, Cart.ppuWrite_good m v h.cart, ?_, h.input1, h.input2⟩
    show s.ppu.Good (s.cart.ppuWrite m v).image.nametableSize
    rw [Cart.ppuWrite_image]
    exact h.ppu
  · rename_i i hi
    exact ⟨h.ram, h.cart, h.ppu.congr ⟨rfl, rfl, rfl, rfl, rfl, rfl, rfl, rfl, rfl⟩ h.ppu.2.2.2.2.1 h.ppu.2.2.2.2.2.2.1
      (Memory.fits_write v h.ppu.2.2.2.2.2.2.2 (ppuCell_nametable_lt h.cart hi)), h.input1, h.input2⟩
  · rename_i i hi
    exact ⟨h.ram, h.cart, h.ppu.congr ⟨rfl, rfl, rfl, rfl, rfl, rfl, rfl, rfl, rfl⟩ h.ppu.2.2.2.2.1
      (Memory.fits_write v h.ppu.2.2.2.2.2.2.1 (ppuCell_palette_lt hi)) h.ppu.2.2.2.2.2.2.2, h.input1, h.input2⟩

/-- A change of the picture unit's own registers. -/
theorem State.BusGood.setPpu {s : State} (h : s.BusGood) {q : Ppu} (hp : s.ppu.SamePipeline q) (oam : q.oam.fits 256 = true)
    (palette : q.palette = s.ppu.palette) (nametable : q.nametable = s.ppu.nametable) : (s.setPpu q).BusGood :=
  ⟨h.ram, h.cart, h.ppu.congr hp oam (palette ▸ h.ppu.2.2.2.2.2.2.1) (nametable ▸ h.ppu.2.2.2.2.2.2.2), h.input1, h.input2⟩

theorem State.regWrite_busGood {s : State} (h : s.BusGood) (r : PpuReg) (v : Byte) : (s.regWrite r v).BusGood := by
  have oam := h.ppu.2.2.2.2.1
  have same {q : Ppu} (hp : s.ppu.SamePipeline q) (ho : q.oam = s.ppu.oam) (h1 : q.palette = s.ppu.palette) (h2 : q.nametable = s.ppu.nametable) :
      (s.setPpu q).BusGood := h.setPpu hp (by rw [ho]; exact oam) h1 h2
  have keep : (s.setPpu { s.ppu with lastWrite := v }).BusGood := same ⟨rfl, rfl, rfl, rfl, rfl, rfl, rfl, rfl, rfl⟩ rfl rfl rfl
  cases r <;> simp only [State.regWrite, State.regAction]
  case data =>
    have g := State.ppuWrite_busGood keep s.ppu.vramAddr v
    exact g.setPpu ⟨rfl, rfl, rfl, rfl, rfl, rfl, rfl, rfl, rfl⟩ g.ppu.2.2.2.2.1 rfl rfl
  case oamData =>
    split
    · exact keep
    · refine h.setPpu (q := { s.ppu with lastWrite := v, oam := s.ppu.oam.write s.ppu.oamAddr.toNat v, oamAddr := s.ppu.oamAddr + 1 })
        ⟨rfl, rfl, rfl, rfl, rfl, rfl, rfl, rfl, rfl⟩ (Memory.fits_write v oam s.ppu.oamAddr.isLt) rfl rfl
  all_goals repeat' split
  all_goals first | exact keep | exact keep.setPpu ⟨rfl, rfl, rfl, rfl, rfl, rfl, rfl, rfl, rfl⟩ oam rfl rfl

theorem State.oamDmaByte_busGood {s : State} (h : s.BusGood) (v i : Byte) : (s.oamDmaByte v i).BusGood := by
  have g := State.cpuRead_busGood h (word v i)
  exact g.setPpu ⟨rfl, rfl, rfl, rfl, rfl, rfl, rfl, rfl, rfl⟩ (Memory.fits_write _ g.ppu.2.2.2.2.1 (BitVec.isLt _)) rfl rfl

theorem State.cpuWrite_busGood {s : State} (h : s.BusGood) (a : Addr) (v : Byte) : (s.cpuWrite a v).BusGood := by
  unfold State.cpuWrite
  split
  · rename_i i hi
    refine ⟨Memory.fits_write v h.ram ?_, h.cart, h.ppu, h.input1, h.input2⟩
    unfold regionOf at hi
    repeat' split at hi
    all_goals cases hi
    exact Nat.mod_lt _ (by decide)
  · exact State.regWrite_busGood h _ v
  · exact State.oamDmaLast_induct (P := State.BusGood) (fun t i ht => State.oamDmaByte_busGood ht v i) 256 s h
  · exact ⟨h.ram, h.cart, h.ppu, InputDevice.write_cursor v h.input1, InputDevice.write_cursor v h.input2⟩
  · exact h
  · exact h
  · exact h
  · have w := s.cart.cpuWrite_writes a v
    exact ⟨h.ram, w.good h.cart, by rw [State.setCart_cart, w.image]; exact h.ppu, h.input1, h.input2⟩

end Sys2Proof.Machine
end

