-- ==== Sys2Proof/Laws/Pipeline.lean ====
section
/-! SUPPORT. One dot of the picture unit keeps the invariant: the grid, the sprite counts, the empty slots, the arrays. -/

namespace Sys2Proof.Machine

/-- A property of states kept by each action of the schedule and by the advance is kept by a tick. -/
theorem State.tick_induct {P : State → Prop} (prerender : ∀ s, P s → P s.prerenderAction) (clear : ∀ s, P s → P s.clearAction)
    (evaluate : ∀ s, P s → P s.evaluateAction) (load : ∀ s, P s → P s.loadAction) (draw : ∀ s, P s → P s.drawAction)
    (vblank : ∀ s, P s → P s.vblankAction) (advance : ∀ s, P s → P (s.setPpu s.ppu.advance)) (s : State) (h : P s) : P s.tick :=
  advance _ (vblank _ (draw _ (load _ (evaluate _ (clear _ (prerender _ h))))))

/-- A property kept by a tick is kept by any number of them. -/
theorem State.ticks_induct {P : State → Prop} (tick : ∀ s, P s → P s.tick) : ∀ (n : Nat) (s : State), P s → P (State.ticks n s)
  | 0, _, h => h
  | n + 1, s, h => State.ticks_induct tick n s.tick (tick s h)

/-- The grid is kept (61 R352). -/
theorem Position.advance_good {p : Position} (h : p.Good) : p.advance.Good := by
  obtain ⟨h1, h2, h3, h4⟩ := h
  unfold Position.advance
  repeat' split
  iterate 3 exact ⟨by dsimp only; omega, by dsimp only; omega, by dsimp only; omega, by dsimp only; omega⟩
  · refine ⟨h1, h2, ?_, ?_⟩ <;> dsimp only
    · omega
    · intro e1 e2
      have := h4 e1 e2
      omega

/-- Eight sprites at most are selected, and secondary OAM keeps its size. -/
theorem Ppu.selectFrom_sec : ∀ (k : Nat) (p : Ppu), p.secCount ≤ 8 → p.secondaryOam.fits 32 = true →
    (Ppu.selectFrom k p).1.secCount ≤ 8 ∧ (Ppu.selectFrom k p).1.secondaryOam.fits 32 = true
  | 0, _, h1, h2 => ⟨h1, h2⟩
  | k + 1, p, h1, h2 => by
    unfold Ppu.selectFrom
    split
    · rename_i hlt
      apply Ppu.selectFrom_sec
      · split
        · exact hlt
        · exact h1
      · split
        · exact Memory.fits_write _ (Memory.fits_write _ (Memory.fits_write _ (Memory.fits_write _ h2 (by omega)) (by omega)) (by omega)) (by omega)
        · exact h2
    · exact ⟨h1, h2⟩

/-- Evaluation writes secondary OAM, its count, its sprite-0 mark and the overflow flag. -/
theorem Ppu.selectFrom_frame : ∀ (k : Nat) (p : Ppu), (Ppu.selectFrom k p).1 =
    { p with
      secondaryOam := (Ppu.selectFrom k p).1.secondaryOam, secCount := (Ppu.selectFrom k p).1.secCount
      secHasSpr0 := (Ppu.selectFrom k p).1.secHasSpr0 }
  | 0, _ => rfl
  | k + 1, p => by
    unfold Ppu.selectFrom
    split
    · rw [Ppu.selectFrom_frame k]
      split <;> rfl
    · rfl

theorem Ppu.evaluateSprites_frame (p : Ppu) : p.evaluateSprites =
    { p with
      secondaryOam := (Ppu.selectFrom 64 p).1.secondaryOam, secCount := (Ppu.selectFrom 64 p).1.secCount
      secHasSpr0 := (Ppu.selectFrom 64 p).1.secHasSpr0, spriteOverflow := p.evaluateSprites.spriteOverflow } := by
  have h := Ppu.selectFrom_frame 64 p
  show { (Ppu.selectFrom 64 p).1 with spriteOverflow := p.evaluateSprites.spriteOverflow } = _
  generalize p.evaluateSprites.spriteOverflow = v
  generalize (Ppu.selectFrom 64 p).1 = q at h
  rw [h]

/-- Evaluation never clears the overflow flag (61 R377). -/
theorem Ppu.evaluateSprites_overflow (p : Ppu) (h : p.spriteOverflow = true) : p.evaluateSprites.spriteOverflow = true := by
  have e : (Ppu.selectFrom 64 p).1.spriteOverflow = p.spriteOverflow := by rw [Ppu.selectFrom_frame]
  show ((Ppu.selectFrom 64 p).1.spriteOverflow || _) = true
  rw [e, h]
  rfl

theorem Slot.empty_advance : Slot.empty.advance = Slot.empty := rfl

theorem Ppu.advanceSlots_slot (p : Ppu) (k : Fin 8) : p.advanceSlots.slots[k] = p.slots[k].advance := by
  match k with
  | 0 => rfl
  | 1 => rfl
  | 2 => rfl
  | 3 => rfl
  | 4 => rfl
  | 5 => rfl
  | 6 => rfl
  | 7 => rfl

theorem State.loadSlots_slot (s : State) (k : Fin 8) : s.loadSlots.ppu.slots[k] = s.loadedSlot k.val := by
  match k with
  | 0 => rfl
  | 1 => rfl
  | 2 => rfl
  | 3 => rfl
  | 4 => rfl
  | 5 => rfl
  | 6 => rfl
  | 7 => rfl

/-- A tick keeps everything the bus side's invariant says. -/
theorem State.tick_busGood (s : State) (h : s.BusGood) : s.tick.BusGood := by
  have set {t : State} (ht : t.BusGood) {q : Ppu} (hq : q.Good t.cart.image.nametableSize) : (t.setPpu q).BusGood :=
    ⟨ht.ram, ht.cart, hq, ht.input1, ht.input2⟩
  refine State.tick_induct (P := State.BusGood) ?_ ?_ ?_ ?_ ?_ ?_ ?_ s h
  · intro t ht
    unfold State.prerenderAction
    split
    · exact set ht ht.ppu
    · exact ht
  · intro t ht
    unfold State.clearAction
    split
    · obtain ⟨h1, h2, h3, h4, h5, h6, h7⟩ := ht.ppu
      exact set ht ⟨h1, h2, Nat.zero_le 8, h4, h5, Memory.fits_ofBytes _ (by simp), h7⟩
    · exact ht
  · intro t ht
    unfold State.evaluateAction
    split
    · obtain ⟨h1, h2, h3, h4, h5, h6, h7⟩ := ht.ppu
      obtain ⟨g3, g6⟩ := Ppu.selectFrom_sec 64 t.ppu h3 h6
      refine set ht ?_
      rw [Ppu.evaluateSprites_frame]
      exact ⟨h1, h2, g3, h4, h5, g6, h7⟩
    · exact ht
  · intro t ht
    unfold State.loadAction
    split
    · obtain ⟨h1, h2, h3, h4, h5, h6, h7⟩ := ht.ppu
      refine set ht ⟨h1, h3, h3, ?_, h5, h6, h7⟩
      intro k hk
      refine (t.loadSlots_slot k).trans ?_
      unfold State.loadedSlot
      rw [if_neg (Nat.not_lt.mpr hk)]
    · exact ht
  · intro t ht
    unfold State.drawAction
    split
    · obtain ⟨h1, h2, h3, h4, h5, h6, h7⟩ := ht.ppu
      refine ⟨ht.ram, ht.cart, ⟨h1, h2, h3, ?_, h5, h6, h7⟩, ht.input1, ht.input2⟩
      intro k hk
      refine (t.ppu.advanceSlots_slot k).trans ?_
      rw [h4 k hk]
      rfl
    · exact ht
  · intro t ht
    unfold State.vblankAction
    split
    · dsimp only
      split <;> exact ⟨ht.ram, ht.cart, ht.ppu, ht.input1, ht.input2⟩
    · exact ht
  · intro t ht
    obtain ⟨h1, h2⟩ := ht.ppu
    exact set ht ⟨Position.advance_good h1, h2⟩

/-- The callback record is no part of it. -/
theorem State.BusGood.setEvents {s : State} (h : s.BusGood) (e : List Event) : (s.setEvents e).BusGood := ⟨h.ram, h.cart, h.ppu, h.input1, h.input2⟩

end Sys2Proof.Machine
end

