-- ==== Sys2Proof/Tests/Slice0.lean ====
section
/-! SUPPORT. The model's own tests. Expected results are the spec's: the encoding tables of 30_encoding and 40 to 45, and the vectors of 95_test_vectors, whose
ids the names carry. Then, for each statement with hypotheses, states and operands that meet them, each clause at a boundary of its range. -/

namespace Sys2Proof.Tests

open Sys2Proof Sys2Proof.Machine

/-- The start state of the spec's vectors: after reset, the instruction at 0x8000. -/
def start : State := { State.reset with pc := 0x8000 }

/-- With these bytes of RAM. -/
def withRam (s : State) (bs : List (Nat × Byte)) : State := { s with ram := bs.foldl (fun m b => m.write b.1 b.2) s.ram }

/-- With these bytes stored at 0x0300 and on, and `PC` there. -/
def withCode (s : State) (bs : List Byte) : State := { withRam s (bs.mapIdx fun k b => (0x300 + k, b)) with pc := 0x300 }

/-- A view of the state an instruction leads to. -/
def after {α : Type} (i : Instr) (s : State) (view : State → α) : Option α :=
  match exec i s with
  | .next t => some (view t)
  | .fault _ => none
  | .refused _ => none

/-- A view of the state a step leads to. -/
def afterStep {α : Type} (s : State) (view : State → α) : Option α :=
  match step s with
  | .next t => some (view t)
  | .fault _ => none
  | .refused _ => none

/-- Accumulator, packed status, program counter, cycles. -/
def aPc (t : State) : Byte × Byte × Addr × Nat := (t.a, t.flags.pack, t.pc, t.cycles)

/-- One byte of RAM, packed status, program counter, cycles. -/
def memPc (k : Nat) (t : State) : Byte × Byte × Addr × Nat := (t.ram.read k, t.flags.pack, t.pc, t.cycles)

/-- Program counter and cycles. -/
def pcCost (t : State) : Addr × Nat := (t.pc, t.cycles)

/-- The carry set. -/
def carry (s : State) : State := { s with flags := { s.flags with c := true } }

/-! ## WellFormed: an ill-formed term for each check -/

/-- A table with two members of no row: 0x80 reads its operand, 0x82 does not. -/
def nops : List (Byte × NopEntry) := [(0x80, { length := 2, readsOperand := true }), (0x82, { length := 3, readsOperand := false })] ++ defaultNops

theorem test_wf_row : (Instr.ldaImm 0xFF).wf [] = true := by decide
theorem test_wf_member : (Instr.nopStarOther 0x80 { length := 2, readsOperand := true }).wf nops = true := by decide
theorem test_ill_documented : (Instr.nopStarOther 0xA9 { length := 2, readsOperand := true }).wf [(0xA9, { length := 2, readsOperand := true })] = false := by
  decide
theorem test_ill_length_zero : (Instr.nopStarOther 0x80 { length := 0, readsOperand := false }).wf [(0x80, { length := 0, readsOperand := false })] = false := by
  decide
theorem test_ill_length_four : (Instr.nopStarOther 0x80 { length := 4, readsOperand := true }).wf [(0x80, { length := 4, readsOperand := true })] = false := by
  decide
theorem test_ill_operand : (Instr.nopStarOther 0x80 { length := 1, readsOperand := true }).wf [(0x80, { length := 1, readsOperand := true })] = false := by
  decide
theorem test_ill_not_member : (Instr.nopStarOther 0x80 { length := 2, readsOperand := true }).wf defaultNops = false := by decide
theorem test_ill_has_row : (Instr.nopStarOther 0x1A { length := 1, readsOperand := false }).wf defaultNops = false := by decide
theorem test_ill_row_not_member : Instr.nopStar1A.wf [] = false := by decide
theorem test_ill_table : nopTableWf [(0x00, { length := 1, readsOperand := false })] = false := by decide
theorem test_ill_eval_dot : ({ defaultParams with spriteEvalDot := 64 } : Params).wf = false := by decide
theorem test_ill_push_offset : ({ defaultParams with brkPushOffset := 3 } : Params).wf = false := by decide
theorem test_wf_params : defaultParams.wf = true := by decide

/-! ## Decoding: words written out from the tables of 30_encoding R160, 40 R180, 41 R200, 42 R220, 43 R240, 44 R260, 45 R301 -/

theorem test_decode_group01 : [[0x01, 0x20], [0x25, 0x10], [0x4D, 0x00, 0x02], [0x7D, 0xF0, 0x02], [0x99, 0xFF, 0x02], [0xB1, 0x10], [0xC9, 0x80], [0xF5, 0x80]].map (decode defaultNops) =
    [.ok (.oraIzx 0x20, []), .ok (.andZp 0x10, []), .ok (.eorAbs 0x0200, []), .ok (.adcAbx 0x02F0, []), .ok (.staAby 0x02FF, []), .ok (.ldaIzy 0x10, []), .ok (.cmpImm 0x80, []), .ok (.sbcZpx 0x80, [])] := by decide
theorem test_decode_group10 : [[0x0A], [0x2E, 0x00, 0x02], [0x56, 0x10], [0x7E, 0xFF, 0x02], [0x96, 0x10], [0xBE, 0x80, 0x02], [0xC6, 0x10], [0xEE, 0x00, 0x02]].map (decode defaultNops) =
    [.ok (.aslAcc, []), .ok (.rolAbs 0x0200, []), .ok (.lsrZpx 0x10, []), .ok (.rorAbx 0x02FF, []), .ok (.stxZpy 0x10, []), .ok (.ldxAby 0x0280, []), .ok (.decZp 0x10, []), .ok (.incAbs 0x0200, [])] := by decide
theorem test_decode_group00 : [[0x2C, 0x02, 0x20], [0x4C, 0x34, 0x12], [0x6C, 0xFF, 0x02], [0x94, 0xFF], [0xBC, 0xFF, 0x02], [0xC0, 0x10], [0xE4, 0x10]].map (decode defaultNops) =
    [.ok (.bitAbs 0x2002, []), .ok (.jmpAbs 0x1234, []), .ok (.jmpInd 0x02FF, []), .ok (.styZpx 0xFF, []), .ok (.ldyAbx 0x02FF, []), .ok (.cpyImm 0x10, []), .ok (.cpxZp 0x10, [])] := by decide
theorem test_decode_branches : [[0x10, 0xFB], [0xF0, 0xFC], [0x70, 0x02]].map (decode defaultNops) =
    [.ok (.bpl 0xFB, []), .ok (.beq 0xFC, []), .ok (.bvs 0x02, [])] := by decide
theorem test_decode_stack_and_calls : [[0x00], [0x20, 0x34, 0x92], [0x40], [0x60], [0x08], [0x28], [0x48], [0x68]].map (decode defaultNops) =
    [.ok (.brk, []), .ok (.jsr 0x9234, []), .ok (.rti, []), .ok (.rts, []), .ok (.php, []), .ok (.plp, []), .ok (.pha, []), .ok (.pla, [])] := by decide
theorem test_decode_single_byte : [[0x88], [0xA8], [0xC8], [0xE8], [0x18], [0x38], [0x58], [0x78], [0x98], [0xB8], [0xD8], [0xF8], [0x8A], [0x9A], [0xAA], [0xBA], [0xCA], [0xEA]].map (decode defaultNops) =
    [.ok (.dey, []), .ok (.tay, []), .ok (.iny, []), .ok (.inx, []), .ok (.clc, []), .ok (.sec, []), .ok (.cli, []), .ok (.sei, []), .ok (.tya, []), .ok (.clv, []), .ok (.cld, []), .ok (.sed, []), .ok (.txa, []), .ok (.txs, []), .ok (.tax, []), .ok (.tsx, []), .ok (.dex, []), .ok (.nop, [])] := by decide
theorem test_decode_nop_star : [[0x1A], [0x04, 0xFF], [0x0C, 0x02, 0x20]].map (decode defaultNops) =
    [.ok (.nopStar1A, []), .ok (.nopStar04 0xFF, []), .ok (.nopStar0C 0x2002, [])] := by decide
theorem test_decode_member : decode nops [0x80, 0x77, 0x01] = .ok (.nopStarOther 0x80 { length := 2, readsOperand := true }, [0x01]) := by decide
theorem test_decode_unread_member : decode nops [0x82, 0x77, 0x01, 0x02] = .ok (.nopStarOther 0x82 { length := 3, readsOperand := false }, [0x02]) := by decide
theorem test_decode_illegal : decode defaultNops [0x02, 0x00] = .error (.illegal 0x02) := by decide
theorem test_decode_truncated : decode defaultNops [0x4C, 0x34] = .error (.truncated 0x4C) := by decide
theorem test_decode_word : decodeTableWord 24 0x1234BD = some (.ldaAbx 0x1234) := by decide
theorem test_decode_short_word : decodeTableWord 8 0x4C = some (.jmpAbs 0) := by decide

/-! ## One instruction each: vectors T1 to T82 -/

theorem test_T1_ora : after (.oraIzx 0x20) (withRam ({ start with a := 0x0F, x := 0x04 }) [(0x24, 0x00), (0x25, 0x03), (0x300, 0xF0)]) aPc = some (0xFF, 0xB4, 0x8002, 6) := by decide
theorem test_T2_ora_wrap : after (.oraIzx 0xFF) (withRam ({ start with a := 0x01 }) [(0xFF, 0x34), (0x00, 0x02), (0x100, 0x07), (0x234, 0x80)]) aPc = some (0x81, 0xB4, 0x8002, 6) := by decide
theorem test_T3_and : after (.andZp 0x10) (withRam ({ start with a := 0xF0 }) [(0x10, 0x0F)]) aPc = some (0x00, 0x36, 0x8002, 3) := by decide
theorem test_T4_eor : after (.eorAbs 0x0200) (withRam ({ start with a := 0xAA }) [(0x200, 0xAA)]) aPc = some (0x00, 0x36, 0x8003, 4) := by decide
theorem test_T5_adc : after (.adcImm 0x01) ({ start with a := 0x7F }) aPc = some (0x80, 0xF4, 0x8002, 2) := by decide
theorem test_T6_adc_carry : after (.adcImm 0x80) ({ start with a := 0x80 }) aPc = some (0x00, 0x77, 0x8002, 2) := by decide
theorem test_T8_adc_decimal : after (.adcImm 0x01) ({ start with a := 0x09, flags := { resetFlags with d := true } }) aPc = some (0x0A, 0x3C, 0x8002, 2) := by decide
theorem test_T9_adc_crossing : after (.adcAbx 0x02F0) (carry (withRam ({ start with a := 0x01, x := 0x20 }) [(0x310, 0x02)])) aPc = some (0x04, 0x34, 0x8003, 5) := by decide
theorem test_T10_adc_not_crossing : after (.adcAbx 0x02F0) (carry (withRam ({ start with a := 0x01, x := 0x0F }) [(0x2FF, 0x02)])) aPc = some (0x04, 0x34, 0x8003, 4) := by decide
theorem test_T12_sbc : after (.sbcImm 0x01) (carry ({ start with a := 0x80 })) aPc = some (0x7F, 0x75, 0x8002, 2) := by decide
theorem test_T13_sbc_borrow : after (.sbcImm 0x05) ({ start with a := 0x05 }) aPc = some (0xFF, 0xB4, 0x8002, 2) := by decide
theorem test_T15_cmp : after (.cmpImm 0x40) ({ start with a := 0x40 }) aPc = some (0x40, 0x37, 0x8002, 2) := by decide
theorem test_T17_cmp_unsigned : after (.cmpImm 0x80) (start) aPc = some (0x00, 0xB4, 0x8002, 2) := by decide
theorem test_T18_lda : after (.ldaIzy 0x10) (withRam ({ start with y := 0x10 }) [(0x10, 0xF8), (0x11, 0x02), (0x308, 0x99)]) aPc = some (0x99, 0xB4, 0x8002, 6) := by decide
theorem test_T19_lda_wrap : after (.ldaAby 0xFFFF) (withRam ({ start with y := 0x02 }) [(0x01, 0x5A)]) aPc = some (0x5A, 0x34, 0x8003, 5) := by decide
theorem test_T22_sta : after (.staAbx 0x0200) ({ start with a := 0x42, x := 0x01 }) (memPc 0x201) = some (0x42, 0x34, 0x8003, 5) := by decide
theorem test_T24_sta_izy : after (.staIzy 0x10) (withRam ({ start with a := 0x42, y := 0x01 }) [(0x10, 0x00), (0x11, 0x02)]) (memPc 0x201) = some (0x42, 0x34, 0x8002, 6) := by decide
theorem test_T25_asl : after (.aslAcc) ({ start with a := 0x81 }) aPc = some (0x02, 0x35, 0x8001, 2) := by decide
theorem test_T26_asl_zp : after (.aslZp 0x10) (withRam start [(0x10, 0x40)]) (memPc 0x10) = some (0x80, 0xB4, 0x8002, 5) := by decide
theorem test_T27_rol : after (.rolAbs 0x0200) (carry (withRam start [(0x200, 0x80)])) (memPc 0x200) = some (0x01, 0x35, 0x8003, 6) := by decide
theorem test_T28_lsr : after (.lsrZpx 0x10) (withRam ({ start with x := 0x01 }) [(0x11, 0x01)]) (memPc 0x11) = some (0x00, 0x37, 0x8002, 6) := by decide
theorem test_T29_ror : after (.rorAbx 0x02FF) (carry (withRam ({ start with x := 0x01 }) [(0x300, 0x01)])) (memPc 0x300) = some (0x80, 0xB5, 0x8003, 7) := by decide
theorem test_T30_ror_acc : after (.rorAcc) (start) aPc = some (0x00, 0x36, 0x8001, 2) := by decide
theorem test_T31_inc : after (.incZp 0x10) (withRam start [(0x10, 0xFF)]) (memPc 0x10) = some (0x00, 0x36, 0x8002, 5) := by decide
theorem test_T32a_dec : after (.decZp 0x10) (start) (memPc 0x10) = some (0xFF, 0xB4, 0x8002, 5) := by decide
theorem test_T34_ldx : after (.ldxZpy 0xFF) (withRam ({ start with y := 0x02 }) [(0x01, 0x80)]) (fun t => (t.x, t.flags.pack, t.pc, t.cycles)) = some (0x80, 0xB4, 0x8002, 4) := by decide
theorem test_T35_ldx_crossing : after (.ldxAby 0x0280) ({ start with x := 0x07, y := 0x80 }) (fun t => (t.x, t.flags.pack, t.pc, t.cycles)) = some (0x00, 0x36, 0x8003, 5) := by decide
theorem test_T36_stx : after (.stxZpy 0x10) ({ start with x := 0x55, y := 0x03 }) (memPc 0x13) = some (0x55, 0x34, 0x8002, 4) := by decide
theorem test_T37_bit : after (.bitZp 0x10) (withRam ({ start with a := 0x01 }) [(0x10, 0xC0)]) aPc = some (0x01, 0xF6, 0x8002, 3) := by decide
theorem test_T38_bit_abs : after (.bitAbs 0x0200) (withRam ({ start with a := 0xFF, flags := { resetFlags with v := true, n := true } }) [(0x200, 0x3F)]) aPc = some (0xFF, 0x34, 0x8003, 4) := by decide
theorem test_T39_jmp : after (.jmpAbs 0x1234) (start) pcCost = some (0x1234, 3) := by decide
theorem test_T33_jmp_ind : after (.jmpInd 0x02FF) (withRam start [(0x2FF, 0x34), (0x200, 0x12), (0x300, 0x56)]) pcCost = some (0x1234, 5) := by decide
theorem test_T44_ldy : after (.ldyAbx 0x02FF) (withRam ({ start with x := 0x01 }) [(0x300, 0x80)]) (fun t => (t.y, t.flags.pack, t.pc, t.cycles)) = some (0x80, 0xB4, 0x8003, 5) := by decide
theorem test_T45_sty : after (.styZpx 0xFF) ({ start with x := 0x02, y := 0x09 }) (memPc 0x01) = some (0x09, 0x34, 0x8002, 4) := by decide
theorem test_T46_cpy : after (.cpyImm 0x10) ({ start with y := 0x20 }) aPc = some (0x00, 0x35, 0x8002, 2) := by decide
theorem test_T47_cpx : after (.cpxZp 0x10) (withRam ({ start with x := 0x10 }) [(0x10, 0x10)]) aPc = some (0x00, 0x37, 0x8002, 3) := by decide
theorem test_T40_bne_not_taken : after (.bne 0x10) ({ start with flags := { resetFlags with z := true } }) pcCost = some (0x8002, 2) := by decide
theorem test_T41_bne : after (.bne 0x10) (start) pcCost = some (0x8012, 3) := by decide
theorem test_T42_beq : after (.beq 0xFC) ({ start with flags := { resetFlags with z := true } }) pcCost = some (0x7FFE, 4) := by decide
theorem test_T43_bcc : after (.bcc 0x7F) ({ start with pc := 0x80F0 }) pcCost = some (0x8171, 4) := by decide
theorem test_T49_bcs : after (.bcs 0xFE) (carry start) pcCost = some (0x8000, 3) := by decide
theorem test_T50_bpl : after (.bpl 0x01) ({ start with pc := 0x80FD }) pcCost = some (0x8100, 4) := by decide
theorem test_T51_bmi : after (.bmi 0x00) ({ start with flags := { resetFlags with n := true } }) pcCost = some (0x8002, 3) := by decide
theorem test_T51a_bvc : after (.bvc 0x02) (start) pcCost = some (0x8004, 3) := by decide
theorem test_T51b_bvs : after (.bvs 0x02) (start) pcCost = some (0x8002, 2) := by decide
theorem test_T52_jsr : after (.jsr 0x9234) (start) (fun t => (t.pc, t.sp, t.ram.read 0x1FD, t.ram.read 0x1FC, t.cycles)) = some (0x9234, 0xFB, 0x80, 0x02, 6) := by decide
theorem test_T53_rts : after (.rts) (withRam ({ start with sp := 0xFB }) [(0x1FC, 0x02), (0x1FD, 0x80)]) (fun t => (t.pc, t.sp, t.cycles)) = some (0x8003, 0xFD, 6) := by decide
theorem test_T54_brk : after (.brk) (start) (fun t => (t.ram.read 0x1FD, t.ram.read 0x1FC, t.ram.read 0x1FB, t.sp, t.pc, t.cycles)) = some (0x80, 0x02, 0x34, 0xFA, 0x0000, 7) := by decide
theorem test_T55_brk_stack_wrap : after (.brk) ({ start with sp := 0x01, flags := { resetFlags with c := true, n := true, i := false, b := false } }) (fun t => (t.ram.read 0x101, t.ram.read 0x100, t.ram.read 0x1FF, t.sp, t.flags.pack)) = some (0x80, 0x02, 0xB1, 0xFE, 0xB5) := by decide
theorem test_T56_rti : after (.rti) (withRam ({ start with sp := 0xFA }) [(0x1FB, 0xC3), (0x1FC, 0x34), (0x1FD, 0x92)]) (fun t => (t.flags.pack, t.pc, t.sp, t.cycles)) = some (0xE3, 0x9234, 0xFD, 6) := by decide
theorem test_T57_php : after (.php) ({ start with flags := { resetFlags with c := true, v := true, b := false, i := true } }) (fun t => (t.ram.read 0x1FD, t.sp, t.cycles)) = some (0x65, 0xFC, 3) := by decide
theorem test_T60_plp : after (.plp) (withRam ({ start with sp := 0xFC }) [(0x1FD, 0xFF)]) (fun t => (t.flags.pack, t.sp, t.cycles)) = some (0xFF, 0xFD, 4) := by decide
theorem test_T64_pha_wrap : after (.pha) ({ start with a := 0x77, sp := 0x00 }) (fun t => (t.ram.read 0x100, t.sp, t.cycles)) = some (0x77, 0xFF, 3) := by decide
theorem test_T65_pla_wrap : after (.pla) (withRam ({ start with sp := 0xFF }) [(0x100, 0x80)]) (fun t => (t.a, t.sp, t.flags.pack, t.cycles)) = some (0x80, 0x00, 0xB4, 4) := by decide
theorem test_T66_txs : after (.txs) ({ start with x := 0x00, flags := { resetFlags with n := true } }) (fun t => (t.sp, t.flags.pack)) = some (0x00, 0xB4) := by decide
theorem test_T67_tsx : after (.tsx) ({ start with sp := 0x80 }) (fun t => (t.x, t.flags.pack)) = some (0x80, 0xB4) := by decide
theorem test_T68_tax : after (.tax) ({ start with x := 0x05 }) (fun t => (t.x, t.flags.pack)) = some (0x00, 0x36) := by decide
theorem test_T69_dex : after (.dex) (start) (fun t => (t.x, t.flags.pack)) = some (0xFF, 0xB4) := by decide
theorem test_T70_iny : after (.iny) (carry ({ start with y := 0xFF })) (fun t => (t.y, t.flags.pack)) = some (0x00, 0x37) := by decide
theorem test_T71_inx : after (.inx) ({ start with x := 0x7F }) (fun t => (t.x, t.flags.pack)) = some (0x80, 0xB4) := by decide
theorem test_T72_dey : after (.dey) ({ start with y := 0x01 }) (fun t => (t.y, t.flags.pack)) = some (0x00, 0x36) := by decide
theorem test_txa : after (.txa) ({ start with a := 0x11, x := 0x80 }) (fun t => (t.a, t.flags.pack)) = some (0x80, 0xB4) := by decide
theorem test_tay : after (.tay) ({ start with a := 0x80, y := 0x11 }) (fun t => (t.y, t.flags.pack)) = some (0x80, 0xB4) := by decide
theorem test_tya : after (.tya) ({ start with a := 0x11, y := 0x00 }) (fun t => (t.a, t.flags.pack)) = some (0x00, 0x36) := by decide
theorem test_T73_sed : after (.sed) (start) (fun t => (t.flags.pack, t.pc, t.cycles)) = some (0x3C, 0x8001, 2) := by decide
theorem test_T74_cli : after (.cli) (start) (fun t => t.flags.pack) = some 0x30 := by decide
theorem test_T75_clv : after (.clv) ({ start with flags := { resetFlags with v := true } }) (fun t => t.flags.pack) = some 0x34 := by decide
theorem test_clc : after (.clc) (carry start) (fun t => t.flags.pack) = some 0x34 := by decide
theorem test_sec : after (.sec) (start) (fun t => t.flags.pack) = some 0x35 := by decide
theorem test_cld : after (.cld) ({ start with flags := { resetFlags with d := true } }) (fun t => t.flags.pack) = some 0x34 := by decide
theorem test_sei : after (.sei) ({ start with flags := { resetFlags with i := false } }) (fun t => t.flags.pack) = some 0x34 := by decide
theorem test_T76_nop : after (.nop) (start) pcCost = some (0x8001, 2) := by decide
theorem test_T80_nop_star : after (.nopStar1A) (start) pcCost = some (0x8001, 2) := by decide
theorem test_T81_nop_star_two : after (.nopStar04 0xFF) (start) pcCost = some (0x8002, 3) := by decide
theorem test_T82_nop_star_three : after (.nopStar0C 0x2002) (start) pcCost = some (0x8003, 4) := by decide

/-! ## One step: fetch, faults, the NMI, the dummy read -/

theorem test_S1_step_lda : afterStep (withCode State.reset [0xA9, 0x10]) aPc = some (0x10, 0x34, 0x302, 2) := by decide +kernel
theorem test_step_dots : afterStep (withCode State.reset [0xA9, 0x10]) (fun t => (t.ppu.scanline, t.ppu.dot)) = some (0, 6) := by decide +kernel
theorem test_fetch_word : afterStep (State.reset.withFetchWord 24 0x900020) pcCost = some (0x9000, 6) := by decide +kernel
theorem test_fetch_word_high : afterStep ({ State.reset with pc := 0xFFFF }.withFetchWord 16 0x10A9) (fun t => t.a) = some 0x10 := by decide +kernel
theorem test_T83_empty_table : afterStep ({ withCode State.reset [0x1A] with params := { defaultParams with undocNops := [] } })
    (fun t => (t.halted, t.pc, t.cycles)) = some (some (0x300, 0x1A), 0x300, 0) := by decide
theorem test_T84_illegal : afterStep ({ withCode State.reset [0x02] with a := 0x07 }) (fun t => (t.halted, t.a, t.pc, t.cycles, t.ppu.dot)) =
    some (some (0x300, 0x02), 0x07, 0x300, 0, 0) := by decide
theorem test_halted_stands : step { State.reset with halted := some (0x300, 0x02), nmiPending := true } = .fault (.halted 0x300 0x02) := rfl

/-- A cartridge with these bytes of program ROM. -/
def withProgram (s : State) (bs : List (Nat × Byte)) : State :=
  { s with cart := { s.cart with image := { s.cart.image with prg := bs.foldl (fun m b => m.write b.1 b.2) s.cart.image.prg } } }

/-- The NMI vector at 0x8020 and an NMI pending, the processor at 0x800F. -/
def nmiStart : State := { withProgram State.reset [(0x7FFA, 0x20), (0x7FFB, 0x80)] with pc := 0x800F, nmiPending := true }

theorem test_I1_nmi : afterStep nmiStart (fun t => (t.ram.read 0x1FD, t.ram.read 0x1FC, t.ram.read 0x1FB, t.sp, t.pc, t.nmiPending)) =
    some (0x80, 0x0F, 0x34, 0xFA, 0x8020, false) := by decide +kernel
theorem test_I3_nmi_break : afterStep { nmiStart with flags := { resetFlags with b := false, c := true } }
    (fun t => (t.ram.read 0x1FB, t.flags.pack)) = some (0x25, 0x25) := by decide +kernel

/-- In vertical blank, with this dummy-read policy. -/
def statusStart (policy : DummyReadPolicy) : State :=
  { start with x := 0x10, ppu := { Ppu.powerOn with vblank := true }, params := { defaultParams with dummyRead := policy } }

theorem test_T88_one_read : after (.ldaAbx 0x20F2) (statusStart .never) (fun t => (t.a, t.ppu.vblank)) = some (0x80, false) := by decide
theorem test_T88_two_reads : after (.ldaAbx 0x20F2) (statusStart .onPageCross) (fun t => (t.a, t.ppu.vblank)) = some (0x00, false) := by decide
theorem test_T82_no_read : after (.nopStar0C 0x2002) (statusStart .always) (fun t => t.ppu.vblank) = some true := by decide

/-! ## The buses: vectors B1 to B13, M1 to M6 -/

/-- Writes in order. -/
def writes (s : State) (ws : List (Addr × Byte)) : State := ws.foldl (fun t p => t.cpuWrite p.1 p.2) s

theorem test_B1_ram_mirror : ((start.cpuWrite 0x0810 0x5A).peek 0x0010, (start.cpuWrite 0x0810 0x5A).peek 0x1810) = (0x5A, 0x5A) := by decide
theorem test_B2_register_mirror : (start.cpuWrite 0x3FF9 0x18).ppu.mask = 0x18 := by decide
theorem test_B3_palette : let t := writes start [(0x2006, 0x3F), (0x2006, 0x10), (0x2007, 0x2A)]
    (t.ppu.palette.read 0, t.ppu.vramAddr, t.ppu.w) = (0x2A, 0x3F11, false) := by decide
theorem test_B4_read_back : let t := writes start [(0x2006, 0x3F), (0x2006, 0x10), (0x2007, 0x2A), (0x2006, 0x3F), (0x2006, 0x00)]
    ((t.cpuRead 0x2007).1, (t.cpuRead 0x2007).2.ppu.vramAddr) = (0x2A, 0x3F01) := by decide
theorem test_B5_toggle : let t := ((start.cpuWrite 0x2005 0x12).cpuRead 0x2002).2.cpuWrite 0x2005 0x34
    (t.ppu.scrollX, t.ppu.scrollY, t.ppu.w) = (0x34, 0x00, true) := by decide
theorem test_B6_status : (start.cpuWrite 0x2001 0xFF).peek 0x2002 = 0x1F := by decide
theorem test_B7_increment :
    let t := writes { start with cycles := 29658 } [(0x2000, 0x04), (0x2006, 0x20), (0x2006, 0x00), (0x2007, 0x01), (0x2007, 0x02)]
    (t.ppu.nametable.read 0x000, t.ppu.nametable.read 0x020, t.ppu.vramAddr) = (0x01, 0x02, 0x2040) := by decide
theorem test_B8_oam_copy :
    let t := (withRam { start with ppu := { Ppu.powerOn with oamAddr := 0x10 } } [(0x200, 0x01), (0x2EF, 0xEF), (0x2F0, 0xF0), (0x2FF, 0xFF)]).cpuWrite 0x4014 0x02
    (t.ppu.oam.read 0x10, t.ppu.oam.read 0xFF, t.ppu.oam.read 0x00, t.ppu.oam.read 0x0F, t.ppu.oamAddr) = (0x01, 0xEF, 0xF0, 0xFF, 0x10) := by
  decide +kernel
theorem test_B9_open_bus : [start.peek 0x4018, start.peek 0x4015, start.peek 0x5000] = [0, 0, 0] := by decide
theorem test_B10_buttons : let t := writes { start with input1 := { InputDevice.powerOn with samples := List.replicate 8 0x01 } } [(0x4016, 1), (0x4016, 0)]
    (readTimes 8 0x4016 t).1 = [1, 0, 0, 0, 0, 0, 0, 0] := by decide

/-- On this line, with background drawing on. -/
def drawingAt (line : Int) : State := { start with ppu := { Ppu.powerOn with scanline := line, mask := 0x08 } }

theorem test_B11_oam_ignored : let t := writes (drawingAt 100) [(0x2003, 0x00), (0x2004, 0x77)]
    (t.ppu.oam.read 0, t.ppu.oamAddr, t.ppu.lastWrite) = (0x00, 0x00, 0x77) := by decide
theorem test_B12_oam_written : let t := writes (drawingAt 245) [(0x2003, 0x00), (0x2004, 0x77)]
    (t.ppu.oam.read 0, t.ppu.oamAddr) = (0x77, 0x01) := by decide
theorem test_B13_warmup : let t := { start with cycles := 100 }.cpuWrite 0x2000 0x80
    (t.ppu.ctrl, t.ppu.lastWrite) = (0x00, 0x80) := by decide

/-- A cartridge with this mirroring mode. -/
def mirrored (m : Mirroring) : Cart := { resetCart with mirroring := m }

theorem test_M1_to_M6 : [ppuCell (mirrored .horizontal) 0x2400, ppuCell (mirrored .horizontal) 0x3805, ppuCell (mirrored .vertical) 0x3005,
    ppuCell (mirrored .vertical) 0x2405, ppuCell (mirrored .singleB) 0x2C05, ppuCell (mirrored .fourScreen) 0x3C05] =
    [.nametable 0x000, .nametable 0x405, .nametable 0x005, .nametable 0x405, .nametable 0x405, .nametable 0xC05] := by decide

/-! ## Sprites and pixels: vectors E1 to E5, X1 to X6 -/

/-- A picture unit on this line with these bytes of OAM over 0xFF. -/
def withOam (line : Int) (ctrl : Byte) (bs : List (Nat × Byte)) : Ppu :=
  { Ppu.powerOn with scanline := line, ctrl := ctrl, oam := bs.foldl (fun m b => m.write b.1 b.2) (Memory.fill 256 0xFF) }

/-- The count, the sprite-0 mark and the overflow flag after evaluation. -/
def evaluated (p : Ppu) : Nat × Bool × Bool :=
  let q := p.clearSecondary.evaluateSprites
  (q.secCount, q.secHasSpr0, q.spriteOverflow)

/-- Sprites 0 to 7 on line 10. -/
def eight : List (Nat × Byte) := (List.range 8).map fun k => (4 * k, 0x0A)

theorem test_E1_overflow : evaluated (withOam 10 0x00 (eight ++ [(32, 0x0A)])) = (8, true, true) := by decide
theorem test_E2_missed : evaluated (withOam 10 0x00 (eight ++ [(32, 0xF0), (33, 0), (34, 0), (35, 0), (36, 0x0A), (37, 0), (38, 0), (39, 0)])) =
    (8, true, false) := by decide +kernel
theorem test_E3_false_positive :
    evaluated (withOam 10 0x00 (eight ++ [(32, 0xF0), (33, 0), (34, 0), (35, 0), (36, 0xF0), (37, 0x0A), (38, 0), (39, 0)])) = (8, true, true) := by
  decide +kernel
theorem test_E4_tall : evaluated (withOam 20 0x20 [(0, 0x05), (20, 0x15), (80, 0x00), (252, 0x14)]) = (2, true, false) := by decide +kernel
theorem test_E5_prerender : (evaluated (withOam (-1) 0x00 [(0, 0x00)])).1 = 0 := by decide +kernel

/-- X1's picture: an opaque background pixel in group 3. -/
def picture (mask : Byte) : State :=
  { start with
    cart := { resetCart with chr := [(0x010, 0x80), (0x018, 0x80)] }
    ppu := { Ppu.powerOn with dot := 1, mask := mask, nametable := [(0x000, 0x01), (0x3C0, 0x03)], palette := [(0x0F, 0x21)] } }

theorem test_X1_background : (picture 0x18).tick.events = [.pixel 0 0 0x21] := by decide +kernel
theorem test_X2_backdrop : ({ picture 0x18 with ppu := { (picture 0x18).ppu with dot := 2 } } : State).tick.events = [.pixel 1 0 0x00] := by decide +kernel
theorem test_X3_gated : (picture 0x10).tick.events = [.pixel 0 0 0x00] := by decide +kernel

/-- X4's sprite, selected on line 15, with this attribute byte. -/
def selected (attr : Byte) : State :=
  { start with
    cart := { resetCart with chr := [(0x020, 0xC0)] }
    ppu := { Ppu.powerOn with scanline := 15, dot := 257, secCount := 1, secondaryOam := [(0, 0x0F), (1, 0x02), (2, attr), (3, 0x04)] } }

theorem test_X4_slot : (selected 0x01).tick.ppu.slots[0] = { lo := 0xC0, hi := 0x00, x := 0x04, attr := 0x01 } := by decide +kernel
theorem test_X4_pixels : ((List.range 8).map fun k => (Ppu.advanceSlots^[k] (selected 0x01).tick.ppu).spritePixel.colour) = [0, 0, 0, 0, 1, 1, 0, 0] := by
  decide +kernel
theorem test_X5_behind : paletteIndex 2 0 1 0x21 = 0x02 := by decide
theorem test_X6_flip : (selected 0x41).tick.ppu.slots[0].lo = 0x03 := by decide +kernel

/-! ## Mappers and images: vectors G1 to G12 -/

/-- Writes to the cartridge, in order. -/
def mapperWrites (c : Cart) (ws : List (Addr × Byte)) : Cart := ws.foldl (fun d p => d.cpuWrite p.1 p.2) c

/-- A cartridge of a variant, with `prgBanks` banks of program ROM whose byte at each index listed is given. -/
def cartOf (mapperId : Byte) (regs : MapperRegs) (prgBanks : Nat) (prg : Memory) : Cart :=
  { resetCart with image := { resetImage with mapperId := mapperId, prgBanks := prgBanks, prg := prg }, regs := regs }

/-- The serial variant's registers at power-on (10_state R49). -/
def serialRegs : SerialRegs := { shift := 0, shiftCount := 0, control := 0b01100, chrBank0 := 0, chrBank1 := 0, prgBank := 0 }

/-- The dual variant's registers at power-on. -/
def dualRegs : DualRegs :=
  { bankSelect := 0, bankReg := #v[0, 0, 0, 0, 0, 0, 0, 0], mirrorReg := false, irqLatch := 0, irqCounter := 0, irqReload := false, irqEnable := false }

/-- 128 KB of program ROM whose first byte of each 8 KB bank is its number plus one. -/
def banks : Memory := (List.range 16).map fun k => (0x2000 * k, BitVec.ofNat 8 (k + 1))

theorem test_G1_serial : let c := mapperWrites (cartOf 1 (.serial serialRegs) 8 banks) [(0x8000, 1), (0x8000, 1), (0x8000, 0), (0x8000, 0), (0x8000, 0)]
    (c.regs, c.mirroring) = (.serial { serialRegs with control := 0b00011 }, .horizontal) := by decide
theorem test_G2_serial_reset :
    (mapperWrites (cartOf 1 (.serial serialRegs) 8 banks)
      [(0x8000, 1), (0x8000, 1), (0x8000, 0x80), (0xE000, 0), (0xE000, 0), (0xE000, 1), (0xE000, 1), (0xE000, 0)]).regs =
    .serial { serialRegs with prgBank := 0x0C } := by decide
theorem test_G3_serial_map : let c := cartOf 1 (.serial { serialRegs with prgBank := 2 }) 8 banks
    (c.cpuRead 0x8000, c.cpuRead 0xC000) = (5, 15) := by decide
theorem test_G4_serial_modulo : (cartOf 1 (.serial { serialRegs with prgBank := 10 }) 8 banks).cpuRead 0x8000 = 5 := by decide
theorem test_G5_bank_select :
    let c : Cart := { cartOf 3 (.bankSelect 0) 2 [] with chr := [(0x4123, 0x5A)], image := { resetImage with mapperId := 3, chrBanks := 4 } }
    ((c.cpuWrite 0x8000 0x06).ppuRead 0x0123, (c.cpuWrite 0x8000 0x06).regs) = (0x5A, .bankSelect 0x06) := by decide
theorem test_G6_dual : let c := mapperWrites (cartOf 4 (.dual dualRegs) 8 banks) [(0x8000, 0x06), (0x8001, 0x05)]
    [c.cpuRead 0x8000, c.cpuRead 0xC000, c.cpuRead 0xE000] = [6, 15, 16] := by decide
theorem test_G7_dual_swapped : let c := mapperWrites (cartOf 4 (.dual dualRegs) 8 banks) [(0x8000, 0x06), (0x8001, 0x05), (0x8000, 0x46)]
    [c.cpuRead 0x8000, c.cpuRead 0xC000, c.cpuRead 0xE000] = [15, 6, 16] := by decide
theorem test_G8_dual_mirroring : let c := (cartOf 4 (.dual dualRegs) 8 banks).cpuWrite 0xA000 0x01
    (c.mirroring, (c.cpuWrite 0xA000 0x00).mirroring) = (.horizontal, .vertical) := by decide
theorem test_G9_dual_irq : (mapperWrites (cartOf 4 (.dual dualRegs) 8 banks) [(0xC000, 0x08), (0xC001, 0x00), (0xE001, 0x00)]).regs =
    .dual { dualRegs with irqLatch := 0x08, irqReload := true, irqEnable := true } := by decide
theorem test_G10_fixed : resetCart.cpuWrite 0x8000 0xFF = resetCart := by decide
theorem test_G11_ids : [headerMapperId 0x10 0x00, headerMapperId 0x40 0x00, headerMapperId 0x20 0x00] = [1, 4, 2] ∧ initialRegs 2 = none := by decide
theorem test_G12_four_screen : headerMirroring 0x09 = .fourScreen := by decide
theorem test_bad_magic : loadImage [0x4E, 0x45, 0x53, 0x00] = .error .badMagic := by decide
theorem test_truncated_image : loadImage ([0x4E, 0x45, 0x53, 0x1A, 0x01] ++ List.replicate 11 0) = .error .truncated := by decide

/-! ## Witnesses: states and operands that meet the hypotheses of the statements -/

theorem witness_DecodeInvertsEncode : (Instr.ldaAbx 0xFFFF).wf [] = true ∧ (Instr.nopStar0C 0x2002).wf nops = true
    ∧ (Instr.nopStarOther 0x82 { length := 3, readsOperand := false }).wf nops = true := by decide

theorem witness_EncodeInvertsDecode : nopTableWf nops = true
    ∧ decode nops [0x80, 0xFF, 0x12] = .ok (.nopStarOther 0x80 { length := 2, readsOperand := true }, [0x12]) := by decide

theorem witness_IllegalOpcodesHalt : let s := withCode State.reset [0xFF]
    s.Running ∧ s.nmiPending = false ∧ shapeOf s.params.undocNops (s.peek s.pc) = none := by
  refine ⟨rfl, rfl, ?_⟩
  rw [show (withCode State.reset [0xFF]).peek (withCode State.reset [0xFF]).pc = 0xFF by decide]
  rfl

theorem witness_StepRunsDecodedInstruction : let s := withCode State.reset [0x4C, 0xFF, 0xFF]
    s.Running ∧ s.nmiPending = false ∧ quiet s.pc = true ∧ quiet (s.pc + 1) = true ∧ quiet (s.pc + 2) = true
      ∧ decode s.params.undocNops [s.peek s.pc, s.peek (s.pc + 1), s.peek (s.pc + 2)] = .ok (.jmpAbs 0xFFFF, []) := by decide

theorem witness_FetchReadsInOrder : (withCode State.reset [0x0A]).Running ∧ (withCode State.reset [0x0A]).nmiPending = false
    ∧ shapeOf defaultNops ((withCode State.reset [0x0A]).peek 0x300) = some (.one .aslAcc)
    ∧ shapeOf nops ((withCode State.reset [0x82]).peek 0x300) = some (.unread 2 (.nopStarOther 0x82 { length := 3, readsOperand := false }))
    ∧ shapeOf defaultNops ((withCode State.reset [0x04]).peek 0x300) = some (.two .nopStar04)
    ∧ shapeOf defaultNops ((withCode State.reset [0xBD]).peek 0x300) = some (.three .ldaAbx) := by
  have read (b : Byte) (h : (withCode State.reset [b]).peek 0x300 = b) (n : List (Byte × NopEntry)) :
      shapeOf n ((withCode State.reset [b]).peek 0x300) = shapeOf n b := by rw [h]
  rw [read 0x0A (by decide), read 0x82 (by decide), read 0x04 (by decide), read 0xBD (by decide)]
  exact ⟨rfl, rfl, rfl, rfl, rfl, rfl⟩

theorem witness_HaltedMachineStands : ({ State.reset with halted := some (0xFFFF, 0xFF) } : State).halted = some (0xFFFF, 0xFF) := rfl

theorem witness_NmiIsServicedFirst : nmiStart.Running ∧ nmiStart.nmiPending = true := by decide

/-- A call from the last address; the callee has left the stack as it found it. -/
theorem witness_ReturnsRestore_jsr : ∃ t, State.reset.ram.wf = true ∧ t.sp = t.sp ∧ t.ram = t.ram
    ∧ exec (.jsr 0xFFFF) { State.reset with pc := 0xFFFF } = .next t := ⟨_, rfl, rfl, rfl, rfl⟩

theorem witness_ReturnsRestore_brk : ∃ t, State.reset.ram.wf = true ∧ exec .brk { State.reset with sp := 0x00 } = .next t := ⟨_, rfl, rfl⟩

theorem witness_ReturnsRestore_nmi : ∃ t, nmiStart.ram.wf = true ∧ nmiStart.Running ∧ nmiStart.nmiPending = true ∧ step nmiStart = .next t :=
  ⟨_, rfl, rfl, rfl, rfl⟩

theorem witness_AddressingModes : MemMode.izx 0xFF ∈ [MemMode.zp 0xFF, .zpx 0xFF, .zpy 0xFF, .abs 0xFFFF, .izx 0xFF] := by decide

/-- A crossing whose partial address is the last byte of RAM's window. -/
theorem witness_DummyReadPolicyIsInvisible : (∀ m, (action (.ldaAbx 0x1F80)).memMode = some m →
      quiet (m.effective { State.reset with x := 0xFF }).partialAddr = true)
    ∧ ∃ t, exec (.ldaAbx 0x1F80) { State.reset with x := 0xFF } = .next t := by
  refine ⟨fun m h => ?_, _, rfl⟩
  cases h
  decide

theorem witness_LogicalResults : action (.oraImm 0xFF) = .read .ora (.imm 0xFF) ∧ action (.andIzy 0xFF) = .read .and (.mem (.izy 0xFF))
    ∧ action (.eorAbx 0xFFFF) = .read .eor (.mem (.abx 0xFFFF)) := ⟨rfl, rfl, rfl⟩

theorem witness_AdcResult : action (.adcImm 0xFF) = .read .adc (.imm 0xFF) := rfl
/-- The clause of the signed sum, true at its edge: 127 + 0 + 1. -/
theorem witness_AdcResult_overflow : (0x7F : Byte).toInt + (0x00 : Byte).toInt + (true.toNat : Int) = 128 := by decide
theorem witness_SbcResult : action (.sbcZpx 0xFF) = .read .sbc (.mem (.zpx 0xFF)) := rfl

theorem witness_LoadResults : action (.ldaAby 0xFFFF) = .read .lda (.mem (.aby 0xFFFF)) ∧ action (.ldxZpy 0xFF) = .read .ldx (.mem (.zpy 0xFF))
    ∧ action (.ldyImm 0x00) = .read .ldy (.imm 0x00) := ⟨rfl, rfl, rfl⟩

theorem witness_CompareAndBitResults : action (.cmpIzx 0xFF) = .read .cmp (.mem (.izx 0xFF)) ∧ action (.cpxImm 0xFF) = .read .cpx (.imm 0xFF)
    ∧ action (.cpyZp 0x00) = .read .cpy (.mem (.zp 0x00)) ∧ action (.bitAbs 0x2002) = .read .bit (.mem (.abs 0x2002)) := ⟨rfl, rfl, rfl, rfl⟩

theorem witness_StoreResults : action (.staAbx 0xFFFF) = .store .sta (.abx 0xFFFF) ∧ action (.stxZpy 0xFF) = .store .stx (.zpy 0xFF)
    ∧ action (.styAbs 0x0000) = .store .sty (.abs 0x0000) := ⟨rfl, rfl, rfl⟩

theorem witness_ModifyResults : action .rorAcc = .modify .ror .acc ∧ action (.incAbx 0xFFFF) = .modify .inc (.abx 0xFFFF)
    ∧ (RmwMode.abx 0xFFFF).mem = some (.abx 0xFFFF) := ⟨rfl, rfl, rfl⟩

theorem witness_FlagAndNopResults : action .nopStar1A = .nopStar 1 ∧ action (.nopStarOther 0x82 { length := 3, readsOperand := false }) = .nopStar 3
    ∧ 1 ≤ 1 ∧ 1 ≤ 3 := ⟨rfl, rfl, by decide, by decide⟩

theorem witness_BranchResults : action (.beq 0x80) = .branch .beq 0x80 ∧ action (.bpl 0x7F) = .branch .bpl 0x7F := ⟨rfl, rfl⟩

/-- A control transfer; an instruction that is none. -/
theorem witness_EveryInstructionCompletes : Instr.brk.wf State.reset.params.undocNops = true
    ∧ (Instr.nopStar04 0xFF).wf State.reset.params.undocNops = true ∧ (action (.nopStar04 0xFF)).writesPc = false := by decide

theorem witness_InstructionFrame : ∃ t, exec (.decAbx 0xFFFF) State.reset = .next t := ⟨_, rfl⟩

theorem witness_NonStoringFrame : (action (.ldaAbs 0x2007)).stores = false ∧ (∃ t, exec (.ldaAbs 0x2007) State.reset = .next t)
    ∧ quiet 0x1FFF = true ∧ quiet 0x4000 = true ∧ quiet 0x4018 = true ∧ quiet 0xFFFF = true := ⟨rfl, ⟨_, rfl⟩, by decide⟩

/-- The premises of `StoringFrame` on the state. -/
def arraysCanonical (s : State) : Bool :=
  s.ram.wf && s.cart.prgRam.wf && s.ppu.oam.wf && s.ppu.palette.wf && s.ppu.nametable.wf && s.cart.chr.wf

/-- A store at the last address of RAM's window, whose neighbours in RAM are kept. -/
theorem witness_StoringFrame_ram : let s := State.reset
    arraysCanonical s = true ∧ (action (.staAbs 0x1FFF)).storeMode = some (.abs 0x1FFF) ∧ (∃ t, exec (.staAbs 0x1FFF) s = .next t)
      ∧ regionOf ((MemMode.abs 0x1FFF).access s).ea ≠ .ram 0x7FE ∧ regionOf 0x0000 ≠ regionOf ((MemMode.abs 0x1FFF).access s).ea := by
  exact ⟨rfl, rfl, ⟨_, rfl⟩, by decide, by decide⟩

/-- A store at the last byte of cartridge RAM; and one at the first address of the mapper's registers. -/
theorem witness_StoringFrame_cartridge : let s := { State.reset with cart := cartOf 1 (.serial serialRegs) 8 banks }
    arraysCanonical s = true ∧ (action (.incAbs 0x7FFF)).storeMode = some (.abs 0x7FFF) ∧ (∃ t, exec (.incAbs 0x7FFF) s = .next t)
      ∧ ((MemMode.abs 0x7FFF).access s).ea.toNat < 0x8000 ∧ quiet 0x7FFE = true ∧ regionOf ((MemMode.abs 0x7FFF).access s).ea = .cartridge
      ∧ (0x7FFE : Addr) ≠ ((MemMode.abs 0x7FFF).access s).ea
      ∧ (action (.staAbs 0x8000)).storeMode = some (.abs 0x8000) ∧ 0x8000 ≤ ((MemMode.abs 0x8000).access s).ea.toNat := by
  exact ⟨rfl, rfl, ⟨_, rfl⟩, by decide, by decide, by decide, by decide, rfl, by decide⟩

/-- Stores to the OAM data register, at the last mirror of it; to the data register; beside the DMA register. -/
theorem witness_StoringFrame_picture : arraysCanonical State.reset = true
    ∧ [(0x3FFC : Addr), 0x2007, 0x4013, 0x4015].map (fun a => ((action (.staAbs a)).storeMode, ((MemMode.abs a).access State.reset).ea.toNat % 8))
      = [(some (.abs 0x3FFC), 4), (some (.abs 0x2007), 7), (some (.abs 0x4013), 3), (some (.abs 0x4015), 5)]
    ∧ (∃ t, exec (.staAbs 0x3FFC) State.reset = .next t) ∧ (∃ t, exec (.staAbs 0x2007) State.reset = .next t)
    ∧ (0xFF : Nat) ≠ State.reset.ppu.oamAddr.toNat ∧ samePpuByte State.reset.cart 0x2000 0x0000 = false := by
  exact ⟨rfl, by decide, ⟨_, rfl⟩, ⟨_, rfl⟩, by decide, by decide⟩

theorem witness_DecimalInterruptBreakAreInert : let s := withCode State.reset [0xA9, 0x10]
    s.nmiPending = false ∧ s.peek s.pc ≠ 0x00 ∧ s.peek s.pc ≠ 0x08 ∧ ∃ t, step s = .next t := ⟨rfl, by decide, by decide, _, rfl⟩

theorem witness_StepKeepsInvariant : State.reset.Inv ∧ ∃ t, step State.reset = .next t := ⟨by decide, _, rfl⟩

theorem witness_ThreeDotsPerCycle : State.reset.Synced ∧ ∃ t, step State.reset = .next t := ⟨by decide, _, rfl⟩

theorem witness_FrameLength : ({ State.reset with ppu := { Ppu.powerOn with scanline := -1, frame := 1 } } : State).ppu.position =
      { scanline := -1, dot := 0, frame := 1 }
    ∧ ({ State.reset with ppu := { Ppu.powerOn with scanline := -1, frame := 2 } } : State).ppu.position = { scanline := -1, dot := 0, frame := 2 }
    ∧ State.reset.ppu.position = { scanline := 0, dot := 0, frame := 0 } ∧ 0 < 1 ∧ 89340 < 89341 := by decide

/-- At this position. -/
def at' (scanline : Int) (dot : Nat) : State := { State.reset with ppu := { Ppu.powerOn with scanline := scanline, dot := dot } }

theorem witness_VerticalBlankAndFlags : ((at' 241 1).ppu.scanline = 241 ∧ (at' 241 1).ppu.dot = 1) ∧ ((at' (-1) 1).ppu.scanline = -1 ∧ (at' (-1) 1).ppu.dot = 1)
    ∧ ¬((at' 241 2).ppu.scanline = 241 ∧ (at' 241 2).ppu.dot = 1) ∧ ¬((at' (-1) 0).ppu.scanline = -1 ∧ (at' (-1) 0).ppu.dot = 1) := by decide

theorem witness_SpriteOverflowIsNeverCleared : let s := { State.reset with ppu := { Ppu.powerOn with spriteOverflow := true } }
    s.ppu.spriteOverflow = true ∧ ∃ t, step s = .next t := ⟨rfl, _, rfl⟩

/-- A dual-variant cartridge with graphics ROM and a four-screen header. -/
theorem witness_ConfigurationIsImmutable :
    let c := cartOf 4 (.dual dualRegs) 8 banks
    let s := { State.reset with cart := { c with image := { c.image with chrBanks := 1, mirroring := .fourScreen }, mirroring := .fourScreen } }
    (∃ t, step s = .next t) ∧ s.cart.image.chrIsRam = false ∧ s.cart.image.mirroring = .fourScreen ∧ s.cart.regs = .dual dualRegs :=
  ⟨⟨_, rfl⟩, rfl, rfl, rfl⟩

theorem witness_ProcessorStepContract : nopTableWf State.reset.params.undocNops = true ∧ (0 : Int) < 1 ∧ State.reset.halted = none ∧ (0 : Int) ≤ 0 := by
  decide

theorem witness_RamMirror : State.reset.ram.wf = true ∧ (0x1FFF : Addr).toNat < 0x2000 ∧ (0x07FF : Addr).toNat < 0x2000
    ∧ (0x1FFF : Addr).toNat % 0x800 = (0x07FF : Addr).toNat % 0x800 := by decide

theorem witness_PictureUnitIsolation : ({ State.reset with nmiPending := true } : State).nmiPending = true := rfl

/-- The first and the last mirror of the window; each register that a clause names. -/
theorem witness_RegisterReads : [(0x2000 : Addr), 0x2001, 0x2002, 0x2003, 0x2004, 0x2005, 0x2006, 0x2007, 0x3FF8, 0x3FFA, 0x3FFC, 0x3FFF].map
      (fun a => (decide (0x2000 ≤ a.toNat ∧ a.toNat < 0x4000), a.toNat % 8))
    = [(true, 0), (true, 1), (true, 2), (true, 3), (true, 4), (true, 5), (true, 6), (true, 7), (true, 0), (true, 2), (true, 4), (true, 7)] := by decide

theorem witness_RegisterWrites : [(0x2000 : Addr), 0x2001, 0x2002, 0x2003, 0x2004, 0x2005, 0x2006, 0x3FF8, 0x3FFD, 0x3FFE].map
      (fun a => (decide (0x2000 ≤ a.toNat ∧ a.toNat < 0x4000), a.toNat % 8))
    = [(true, 0), (true, 1), (true, 2), (true, 3), (true, 4), (true, 5), (true, 6), (true, 0), (true, 5), (true, 6)] := by decide

theorem witness_DataRegisterWrite : 0x2000 ≤ (0x3FFF : Addr).toNat ∧ (0x3FFF : Addr).toNat < 0x4000 ∧ (0x3FFF : Addr).toNat % 8 = 7
    ∧ State.reset.ppu.palette.wf = true ∧ State.reset.ppu.nametable.wf = true ∧ State.reset.cart.chr.wf = true
    ∧ samePpuByte resetCart 0x3F10 0x3F00 = true ∧ State.reset.cart.image.chrIsRam = true ∧ ¬samePpuByte resetCart 0x2000 0x1FFF = true := by decide

theorem witness_PpuSpace : (0x3000 ≤ (0x3EFF : Addr).toNat ∧ (0x3EFF : Addr).toNat < 0x3F00) ∧ (0x3F00 ≤ (0x3FFF : Addr).toNat ∧ (0x3FFF : Addr).toNat < 0x4000)
    ∧ (0x2000 ≤ (0x2FFF : Addr).toNat ∧ (0x2FFF : Addr).toNat < 0x3000) ∧ (0x1FFF : Addr).toNat < 0x2000
    ∧ ppuCell State.reset.cart 0x1FFF = .pattern 0x1FFF ∧ ppuCell State.reset.cart 0x2FFF = .nametable 0x7FF
    ∧ ppuCell State.reset.cart 0x3FFF = .palette 0x1F := by decide

/-- The last page of RAM's window, the first page above the devices, the last page. -/
theorem witness_OamCopy : State.reset.ppu.oam.wf = true ∧ (0x1F : Byte).toNat < 0x20 ∧ 0x41 ≤ (0x41 : Byte).toNat ∧ 0x41 ≤ (0xFF : Byte).toNat := by decide

theorem witness_SilentWindows : ((0x1FFF : Addr).toNat < 0x2000 ∧ (0x1FFF : Addr).toNat ≠ 0x4016 ∧ (0x1FFF : Addr).toNat ≠ 0x4017)
    ∧ (0x4000 ≤ (0x4018 : Addr).toNat ∧ (0x401F : Addr).toNat < 0x4020 ∧ 0x4000 ≤ (0x4014 : Addr).toNat ∧ (0x4014 : Addr).toNat ≠ 0x4016)
    ∧ (0x4000 ≤ (0x4017 : Addr).toNat ∧ (0x4017 : Addr).toNat < 0x4020 ∧ (0x4017 : Addr).toNat ≠ 0x4014 ∧ (0x4017 : Addr).toNat ≠ 0x4016)
    ∧ (0x4020 ≤ (0x4020 : Addr).toNat ∧ (0x5FFF : Addr).toNat < 0x6000) := by decide

theorem witness_InputProtocol : (0x01 : Byte).getLsbD 0 = true ∧ (0xFE : Byte).getLsbD 0 = false ∧ (List.replicate 8 (0x80 : Byte)).length = 8
    ∧ ({ State.reset with input1 := { InputDevice.powerOn with samples := List.replicate 8 0x80 } } : State).input1.samples = List.replicate 8 0x80 ++ []
    ∧ ({ State.reset with input2 := { InputDevice.powerOn with samples := List.replicate 9 0x80 } } : State).input2.samples = List.replicate 8 0x80 ++ [0x80] := by
  decide

/-- An image with one bank of program ROM and graphics RAM, by header byte 6. -/
def imageOf (h6 : Byte) : List Byte := [0x4E, 0x45, 0x53, 0x1A, 0x01, 0x00, h6, 0x00] ++ List.replicate 16392 0x00

theorem imageOf_loads (h6 : Byte) (regs : MapperRegs) (noTrainer : h6.getLsbD 2 = false) (known : initialRegs (headerMapperId h6 0) = some regs) :
    ∃ c, loadImage (imageOf h6) = .ok c ∧ c.image.mapperId = headerMapperId h6 0 ∧ c.image.chrIsRam = true := by
  have h4 : (imageOf h6).getD 4 0 = 0x01 := rfl
  have h5 : (imageOf h6).getD 5 0 = 0x00 := rfl
  have h6' : (imageOf h6).getD 6 0 = h6 := rfl
  have h7 : (imageOf h6).getD 7 0 = 0x00 := rfl
  have magic : (imageOf h6).take 4 = [0x4E, 0x45, 0x53, 0x1A] := rfl
  have length : (imageOf h6).length = 16400 := by simp only [imageOf, List.length_append, List.length_replicate, List.length_cons, List.length_nil]
  generalize imageOf h6 = bytes at *
  simp only [loadImage, magic, length, h4, h5, h6', h7, headerSize, noTrainer, known]
  exact ⟨_, rfl, rfl, rfl⟩

/-- An image of each variant. -/
theorem witness_PowerOnState : [(0x00 : Byte), 0x10, 0x30, 0x40].map (fun h6 => (headerMapperId h6 0, (initialRegs (headerMapperId h6 0)).isSome))
      = [(0, true), (1, true), (3, true), (4, true)]
    ∧ ∀ h6 : Byte, h6.getLsbD 2 = false → (initialRegs (headerMapperId h6 0)).isSome = true →
        ∃ c, loadImage (imageOf h6) = .ok c ∧ c.image.mapperId = headerMapperId h6 0 ∧ c.image.chrIsRam = true :=
  ⟨by decide, fun h6 h hs => imageOf_loads h6 _ h (Option.some_get hs).symm⟩

theorem witness_ImageLoading : ∃ c, loadImage (imageOf 0x00) = .ok c :=
  let ⟨c, h, _⟩ := imageOf_loads 0x00 .fixedBank rfl rfl
  ⟨c, h⟩

theorem witness_InvariantHoldsAtReset : (∃ c, loadImage (imageOf 0x00) = .ok c) ∧ defaultParams.wf = true ∧ Memory.fits 2048 [(0, 0xFF), (2047, 0xFF)] = true :=
  ⟨witness_ImageLoading, by decide, by decide⟩

theorem witness_FixedProgramRom : let s := { State.reset with cart := cartOf 0 .fixedBank 1 [] }
    let u := { State.reset with cart := cartOf 3 (.bankSelect 0xFF) 1 [] }
    0x8000 ≤ (0xC000 : Addr).toNat ∧ 0x1FFF < 0x2000 ∧ (s.cart.regs = .fixedBank ∨ ∃ k, s.cart.regs = .bankSelect k) ∧ s.cart.image.prgBanks = 1
      ∧ 0xC000 ≤ (0xC000 : Addr).toNat ∧ ∃ k, u.cart.regs = .bankSelect k := by
  refine ⟨by decide, by decide, .inl rfl, rfl, by decide, 0xFF, rfl⟩

/-- Both ends of the window, with cartridge RAM and without. -/
theorem witness_CartridgeRam : let s := { State.reset with cart := cartOf 1 (.serial serialRegs) 8 banks }
    let u := { State.reset with cart := cartOf 3 (.bankSelect 0xFF) 1 [] }
    0x6000 ≤ (0x6000 : Addr).toNat ∧ (0x7FFF : Addr).toNat < 0x8000 ∧ s.cart.prgRam.wf = true ∧ (∃ r, s.cart.regs = .serial r)
      ∧ u.cart.prgRam.wf = true ∧ ¬((∃ r, u.cart.regs = .serial r) ∨ ∃ r, u.cart.regs = .dual r) := by
  refine ⟨by decide, by decide, rfl, ⟨_, rfl⟩, rfl, ?_⟩
  rintro (⟨r, h⟩ | ⟨r, h⟩) <;> cases h

theorem witness_SerialLoad : let c := cartOf 1 (.serial serialRegs) 8 banks
    c.regs = .serial serialRegs ∧ (∀ a ∈ [(0x8000 : Addr), 0x9FFF, 0xA000, 0xE000, 0xFFFF], 0x8000 ≤ a.toNat) ∧ (0x80 : Byte).getLsbD 7 = true
      ∧ (∀ v ∈ [(0x00 : Byte), 0x01, 0x7F, 0x7E, 0x01], v.getLsbD 7 = false) ∧ serialRegs.shiftCount = 0 := by
  refine ⟨rfl, by simp, rfl, by simp, rfl⟩

theorem witness_BankMapping : 0x8000 ≤ (0x8000 : Addr).toNat ∧ 0x1FFF < 0x2000 ∧ (cartOf 1 (.serial serialRegs) 8 banks).regs = .serial serialRegs
    ∧ (0x07 : BitVec 5).toNat / 4 % 4 < 2 ∧ (0x08 : BitVec 5).toNat / 4 % 4 = 2 ∧ (0x0F : BitVec 5).toNat / 4 % 4 = 3
    ∧ (0x0F : BitVec 5).toNat / 16 = 0 ∧ (0x10 : BitVec 5).toNat / 16 = 1 ∧ (cartOf 4 (.dual dualRegs) 8 banks).regs = .dual dualRegs := by decide

theorem witness_DualRegisters : (cartOf 4 (.dual dualRegs) 8 banks).regs = .dual dualRegs
    ∧ [(0x8000 : Addr), 0x9FFF, 0xA000, 0xBFFF, 0xC000, 0xDFFF, 0xE000, 0xFFFF].map (fun a => (a.toNat / 0x2000 % 4, a.toNat % 2))
      = [(0, 0), (0, 1), (1, 0), (1, 1), (2, 0), (2, 1), (3, 0), (3, 1)] := by decide

/-- Clauses of `SpriteEvaluation`: seven selected; eight, of which the last is sprite 62 and sprite 63 is in range; the flag set before. -/
theorem witness_SpriteEvaluation :
    let chosen := fun bs : List (Nat × Byte) => ((List.range 64).filter fun n =>
      spriteInRange 10 0x00 ((withOam 10 0x00 bs).oam.read (4 * n))).take 8
    (chosen ((List.range 7).map fun k => (4 * k, 0x0A))).length < 8
      ∧ (chosen ((List.range 9).map fun k => (4 * (55 + k), 0x0A))).length = 8 ∧ (chosen ((List.range 9).map fun k => (4 * (55 + k), 0x0A))).getD 7 0 = 62
      ∧ ({ withOam 10 0x00 [] with spriteOverflow := true } : Ppu).spriteOverflow = true := by decide +kernel

theorem witness_SpritePixels : let p := { Ppu.powerOn with slots := #v[Slot.empty, { lo := 0x80, hi := 0x80, x := 255, attr := 0x23 },
      { lo := 0xFF, hi := 0xFF, x := 255, attr := 0 }, Slot.empty, Slot.empty, Slot.empty, Slot.empty, Slot.empty] }
    (Ppu.advanceSlots^[255] p).slots[1].colour ≠ 0 ∧ (Ppu.advanceSlots^[255] p).slots[0].colour = 0 := by decide +kernel

/-- Clauses of `SpritePixels` about the load: on the last line with the pipeline, one sprite at its last row, in both heights. -/
theorem witness_SpritePixels_load : let s := { at' 239 257 with ppu := { (at' 239 257).ppu with secondaryOam := [(0, 0xE8)], secCount := 1 } }
    s.params.wf = true ∧ -1 ≤ s.ppu.scanline ∧ s.ppu.scanline ≤ 239 ∧ s.ppu.dot = 257 ∧ (0 : Fin 8).val < s.ppu.secCount ∧ s.ppu.secCount ≤ (1 : Fin 8).val
      ∧ s.ppu.scanline = ((s.ppu.secondaryOam.read 0).toNat : Int) + (7 : Nat) ∧ 239 = (0xE0 : Byte).toNat + 15 := by decide

theorem witness_PixelPriority : let s := at' 239 256
    0 ≤ s.ppu.scanline ∧ s.ppu.scanline ≤ 239 ∧ 1 ≤ s.ppu.dot ∧ s.ppu.dot ≤ 256 := by decide

theorem witness_RasterOrder : (at' 239 0).ppu.dot = 0 ∧ (0 ≤ (at' 239 0).ppu.scanline ∧ (at' 239 0).ppu.scanline ≤ 239)
    ∧ (at' (-1) 0).ppu.scanline = -1 ∧ (240 ≤ (at' 260 0).ppu.scanline ∧ (at' 260 0).ppu.scanline ≤ 260) := by decide

end Sys2Proof.Tests
end

section
/-! PROOFS. The state: what the flags that only `Pack` reads can influence, the invariant that every step keeps and that reset establishes, and what
instructions and steps leave unchanged (10_state). -/

namespace Sys2Proof

/-! ## The opcode of what is decoded -/

/-- Every instruction a shape gives has the opcode. -/
def Shape.HasOpcode (op : Byte) : Shape → Prop
  | .one i => opcode i = op
  | .two f => ∀ b, opcode (f b) = op
  | .three f => ∀ addr, opcode (f addr) = op
  | .unread _ i => opcode i = op

theorem Shape.Sound.hasOpcode {nops : List (Byte × NopEntry)} {op : Byte} {sh : Shape} (h : sh.Sound nops op) : sh.HasOpcode op := by
  cases sh with
  | one i => exact h.opcode
  | two f => exact fun b => (h b).opcode
  | three f => exact fun addr => (h addr).opcode
  | unread n i => exact (h (List.replicate n 0) (by simp)).opcode

theorem nopShape_hasOpcode (op : Byte) (e : NopEntry) : (nopShape op e).HasOpcode op := by
  by_cases he : (defaultNops.lookup op == some e) = true
  · exact (nopShape_default (nops := defaultNops) _ (lookup_mem (eq_of_beq he)) rfl).hasOpcode
  · simp only [Bool.not_eq_true] at he
    simp only [nopShape, he]
    split
    · exact fun _ => rfl
    · exact fun _ => rfl
    · rfl

theorem documentedShape_hasOpcode {op : Byte} {sh : Shape} (h : documentedShape op = some sh) : sh.HasOpcode op := by
  have hs := documentedShape_sound op
  rw [h] at hs
  cases sh with
  | one i => exact hs.1
  | two f => exact fun b => (hs b).1
  | three f => exact fun addr => (hs addr).1
  | unread n i => exact hs.elim

/-- Under every table, admissible or not, an instruction the decoder gives has the opcode it was given for. -/
theorem shapeOf_hasOpcode {nops : List (Byte × NopEntry)} {op : Byte} {sh : Shape} (h : shapeOf nops op = some sh) : sh.HasOpcode op := by
  cases hd : documentedShape op with
  | some sh' =>
    rw [shapeOf_of_documented nops hd] at h
    cases h
    exact documentedShape_hasOpcode hd
  | none =>
    simp only [shapeOf, hd, Option.map_eq_some_iff] at h
    obtain ⟨e, -, rfl⟩ := h
    exact nopShape_hasOpcode op e

end Sys2Proof

namespace Sys2Proof.Machine

/-! ## D, I and B -/

/-- The flags with those that only `Pack` reads replaced (10_state R24). -/
def Flags.withDIB (f : Flags) (d i b : Bool) : Flags := { f with d := d, i := i, b := b }

theorem State.withDIB_eq (s : State) (d i b : Bool) : s.withDIB d i b = s.setFlags (s.flags.withDIB d i b) := rfl

theorem State.withDIB_flags (s : State) (d i b : Bool) : (s.withDIB d i b).flags = s.flags.withDIB d i b := rfl

@[simp] theorem State.finish_flags (s : State) (length cost : Nat) : (s.finish length cost).flags = s.flags := rfl
@[simp] theorem State.jump_flags (s : State) (target : Addr) (cost : Nat) : (s.jump target cost).flags = s.flags := rfl

/-- Two states that differ in `D`, `I` and `B` at most. -/
def State.DiffersInDIB (t u : State) : Prop := ∃ d i b, u = t.withDIB d i b

theorem State.differsInDIB_refl (t : State) : t.DiffersInDIB t := ⟨t.flags.d, t.flags.i, t.flags.b, rfl⟩

/-- No reading mnemonic looks at `D`, `I` or `B`. -/
theorem ReadOp.effect_withDIB (op : ReadOp) (v : Byte) (s : State) (d i b : Bool) :
    op.effect v (s.withDIB d i b) = (op.effect v s).withDIB d i b := by
  cases op <;> rfl

/-- No modifying mnemonic looks at `D`, `I` or `B`. -/
theorem ModifyOp.fn_withDIB (op : ModifyOp) (v : Byte) (f : Flags) (d i b : Bool) :
    op.fn v (f.withDIB d i b) = ((op.fn v f).1, (op.fn v f).2.withDIB d i b) := by
  cases op <;> rfl

theorem BranchOp.taken_withDIB (op : BranchOp) (f : Flags) (d i b : Bool) : op.taken (f.withDIB d i b) = op.taken f := by
  cases op <;> rfl

theorem StoreOp.value_withDIB (op : StoreOp) (s : State) (d i b : Bool) : op.value (s.withDIB d i b) = op.value s := by
  cases op <;> rfl

theorem modifyMem_withDIB (op : ModifyOp) (m : MemMode) (cost : Nat) (s : State) (d i b : Bool) :
    modifyMem op.fn m cost (s.withDIB d i b) = (modifyMem op.fn m cost s).withDIB d i b := by
  simp only [modifyMem, State.withDIB_eq, MemMode.access_setFlags, State.cpuRead_setFlags, State.setFlags_flags, ModifyOp.fn_withDIB,
    State.cpuWrite_setFlags, State.cpuRead_flags, MemMode.access_flags]
  rfl

/-- A one-byte instruction other than PHP, which packs the status: `D`, `I` and `B` reach nothing but themselves. -/
theorem ImpliedOp.effect_withDIB {op : ImpliedOp} (h : op ≠ .php) (s : State) (d i b : Bool) :
    (op.effect s).DiffersInDIB (op.effect (s.withDIB d i b)) := by
  cases op with
  | php => exact absurd rfl h
  | pha => exact ⟨d, i, b, by simp only [ImpliedOp.effect, phaEffect, State.push_eq]; rfl⟩
  | plp =>
    have e : plpEffect (s.withDIB d i b) = plpEffect s := by simp only [plpEffect, State.pull_eq]; rfl
    show (plpEffect s).DiffersInDIB (plpEffect (s.withDIB d i b))
    exact e ▸ State.differsInDIB_refl _
  | pla => exact ⟨d, i, b, by simp only [ImpliedOp.effect, plaEffect, State.pull_eq]; rfl⟩
  | cld => exact ⟨false, i, b, rfl⟩
  | sed => exact ⟨true, i, b, rfl⟩
  | cli => exact ⟨d, false, b, rfl⟩
  | sei => exact ⟨d, true, b, rfl⟩
  | _ => exact ⟨d, i, b, rfl⟩

/-- Whether an action packs the status into a byte it pushes (10_state R27). -/
def Action.packs (act : Action) : Prop := act = .brk ∨ act = .implied .php

/-- An action that does not pack the status lets `D`, `I` and `B` reach nothing but themselves. -/
theorem Action.perform_withDIB {act : Action} (h : ¬act.packs) (s : State) (d i b : Bool) :
    (act.perform s).DiffersInDIB (act.perform (s.withDIB d i b)) := by
  have keep (he : act.perform (s.withDIB d i b) = (act.perform s).withDIB d i b) :
      (act.perform s).DiffersInDIB (act.perform (s.withDIB d i b)) := ⟨d, i, b, he⟩
  cases act with
  | read op m =>
    refine keep ?_
    have he := op.effect_withDIB (m.operand s).value (m.operand s).state d i b
    simp only [State.withDIB_eq, ReadMode.operand_flags] at he
    simp only [Action.perform, readInstr, State.withDIB_eq, ReadMode.operand_setFlags, he]
    rfl
  | store op m =>
    refine keep ?_
    simp only [Action.perform, storeInstr, StoreOp.value_withDIB]
    simp only [State.withDIB_eq, MemMode.access_setFlags, State.cpuWrite_setFlags, State.finish_flags, State.cpuWrite_flags, MemMode.access_flags]
    rfl
  | modify op m =>
    refine keep ?_
    cases m with
    | acc =>
      simp only [Action.perform, modifyInstr, State.withDIB_flags, ModifyOp.fn_withDIB]
      rfl
    | zp a => exact modifyMem_withDIB op _ _ s d i b
    | zpx a => exact modifyMem_withDIB op _ _ s d i b
    | abs a => exact modifyMem_withDIB op _ _ s d i b
    | abx a => exact modifyMem_withDIB op _ _ s d i b
  | branch op j =>
    refine keep ?_
    simp only [Action.perform, branchInstr, State.withDIB_flags, BranchOp.taken_withDIB]
    split <;> rfl
  | implied op =>
    obtain ⟨d', i', b', he⟩ := ImpliedOp.effect_withDIB (fun e => h (.inr (congrArg _ e))) s d i b
    exact ⟨d', i', b', congrArg (fun t => t.finish 1 op.cost) he⟩
  | jmp a => exact keep rfl
  | jmpInd a =>
    refine keep ?_
    simp only [Action.perform, State.read16Wrap, State.withDIB_eq, State.cpuRead_setFlags, State.jump_flags, State.cpuRead_flags]
    rfl
  | jsr a =>
    refine keep ?_
    simp only [Action.perform, State.push16_eq]
    rfl
  | brk => exact absurd (.inl rfl) h
  | rti =>
    have e : (Action.rti).perform (s.withDIB d i b) = (Action.rti).perform s := by
      simp only [Action.perform, State.returnFromHandler_eq]
      rfl
    exact e ▸ State.differsInDIB_refl _
  | rts =>
    refine keep ?_
    simp only [Action.perform, State.pull16_eq]
    rfl
  | nopStar n => exact keep rfl

/-- The instruction fetched has the opcode that stands at the program counter. -/
theorem State.fetch_opcode {s t : State} {i : Instr} (h : s.fetch = (some i, t)) : opcode i = s.peek s.pc := by
  unfold State.fetch at h
  dsimp only at h
  cases hs : shapeOf s.params.undocNops (s.cpuRead s.pc).1 with
  | none => rw [hs] at h; cases h
  | some sh =>
    have ho := shapeOf_hasOpcode hs
    rw [hs] at h
    cases sh with
    | one j => cases h; exact ho
    | two f => cases h; exact ho _
    | three f => cases h; exact ho _
    | unread n j => cases h; exact ho

/-- The opcodes of the two instructions that pack the status. -/
theorem opcode_of_packs {i : Instr} (h : (action i).packs) : opcode i = 0x00 ∨ opcode i = 0x08 := by
  cases i <;> simp [action, Action.packs, opcode] at h ⊢

theorem State.fetch_flags (s : State) : s.fetch.2.flags = s.flags :=
  State.fetch_induct (P := fun t => t.flags = s.flags) (fun t a h => (t.cpuRead_flags a).trans h) s rfl

/-- The fetch does not see `D`, `I` and `B`. -/
theorem State.fetch_withDIB (s : State) (d i b : Bool) : (s.withDIB d i b).fetch = (s.fetch.1, s.fetch.2.withDIB d i b) := by
  rw [State.withDIB_eq, State.fetch_setFlags, State.withDIB_eq, State.fetch_flags]

/-- Neither does the picture unit. -/
theorem State.ticks_withDIB (n : Nat) (s : State) (d i b : Bool) : State.ticks n (s.withDIB d i b) = (State.ticks n s).withDIB d i b := by
  rw [State.withDIB_eq, State.ticks_setFlags, State.withDIB_eq, (State.ticks_outside n s).flags]

/-- A round's dots after two units that differ in `D`, `I` and `B` at most: they consumed the same cycles. -/
theorem catchUp_withDIB (s t : State) (d i b d' i' b' : Bool) :
    catchUp (s.withDIB d i b) (t.withDIB d' i' b') = (catchUp s t).withDIB d' i' b' :=
  State.ticks_withDIB (dotsPerCycle * (t.cycles - s.cycles)) t d' i' b'

theorem State.peek_setEvents (s : State) (e : List Event) (a : Addr) : (s.setEvents e).peek a = s.peek a := by
  unfold State.peek
  rw [State.cpuRead_setEvents]

theorem State.peek_withDIB (s : State) (d i b : Bool) (a : Addr) : (s.withDIB d i b).peek a = s.peek a := by
  unfold State.peek
  rw [State.withDIB_eq, State.cpuRead_setFlags]

/-- Settles O33, by the cases of a step: an instruction that does not pack the status, or a fatal decode error. -/
theorem decimalInterruptBreakAreInert : Obligations.DecimalInterruptBreakAreInert := by
  intro s t d i b hn hbrk hphp hs
  have fetched (u : State) (o : Option Instr) (hf : (s.setEvents []).fetch = (o, u)) :
      ((s.withDIB d i b).setEvents []).fetch = (o, u.withDIB d i b) := by
    have h := (s.setEvents []).fetch_withDIB d i b
    rw [hf] at h
    exact h
  obtain ⟨hr, ⟨hn', -⟩ | ⟨j, u, -, hf, rfl⟩ | ⟨u, -, hf, rfl⟩⟩ := step_cases hs
  · rw [hn] at hn'
    cases hn'
  · have hop : opcode j = s.peek s.pc := (State.fetch_opcode hf).trans (s.peek_setEvents [] s.pc)
    have hpacks : ¬(action j).packs := fun h => (opcode_of_packs h).elim (hop ▸ hbrk) (hop ▸ hphp)
    obtain ⟨d', i', b', he⟩ := Action.perform_withDIB hpacks u d i b
    refine ⟨d', i', b', ?_⟩
    rw [step_exec (s := s.withDIB d i b) hr hn (fetched u _ hf), he, catchUp_withDIB]
  · refine ⟨d, i, b, ?_⟩
    rw [step_illegal (s := s.withDIB d i b) hr hn (fetched u _ hf), State.peek_withDIB]
    rfl

/-! ## The invariant -/

/-- Under the rule `never` no dot sets sprite-0 hit (61 R392). -/
theorem State.tick_sprite0Hit {s : State} (hr : s.params.sprite0Rule = .never) (hh : s.ppu.sprite0Hit = false) : s.tick.ppu.sprite0Hit = false := by
  suffices h : s.tick.params.sprite0Rule = .never ∧ s.tick.ppu.sprite0Hit = false from h.2
  refine State.tick_induct (P := fun t => t.params.sprite0Rule = .never ∧ t.ppu.sprite0Hit = false) ?_ ?_ ?_ ?_ ?_ ?_ ?_ s ⟨hr, hh⟩
  · intro t ht
    unfold State.prerenderAction
    split
    · exact ⟨ht.1, rfl⟩
    · exact ht
  · intro t ht
    unfold State.clearAction
    split <;> exact ht
  · intro t ht
    unfold State.evaluateAction
    split
    · exact ⟨ht.1, by rw [State.setPpu_ppu, Ppu.evaluateSprites_frame]; exact ht.2⟩
    · exact ht
  · intro t ht
    unfold State.loadAction
    split <;> exact ht
  · intro t ht
    unfold State.drawAction
    split
    · refine ⟨ht.1, ?_⟩
      simp only [State.drawPixel, ht.1]
      exact ht.2
    · exact ht
  · intro t ht
    unfold State.vblankAction
    split
    · dsimp only
      split <;> exact ht
    · exact ht
  · exact fun t ht => ht

/-- The invariant by its owners: what the buses reach, the parameters, and the flag no rule sets. -/
structure State.Good (s : State) : Prop where
  bus : s.BusGood
  params : s.params.wf = true
  sprite0 : s.params.sprite0Rule = .never → s.ppu.sprite0Hit = false

theorem State.inv_iff_good {s : State} : s.Inv ↔ s.Good := by
  constructor
  · intro h
    exact ⟨h.busGood, h.2.2.2.2.2.1, h.2.2.2.2.2.2⟩
  · rintro ⟨⟨h1, h2, h3, h4, h5⟩, h6, h7⟩
    exact ⟨h1, h2, h3, h4, h5, h6, h7⟩

/-- A part of a step that keeps the parameters and sprite-0 hit keeps the invariant where it keeps the bus side's. -/
theorem State.Good.congr {s t : State} (h : s.Good) (bus : t.BusGood) (params : t.params = s.params)
    (hit : t.ppu.sprite0Hit = s.ppu.sprite0Hit) : t.Good :=
  ⟨bus, by rw [params]; exact h.params, by rw [params, hit]; exact h.sprite0⟩

/-- What the bus side's invariant does not speak of can change freely. -/
theorem State.BusGood.congr {s t : State} (h : s.BusGood) (ht : t = s.busOver t) : t.BusGood := by
  rw [ht]
  exact ⟨h.ram, h.cart, h.ppu, h.input1, h.input2⟩

theorem State.Good.tick {s : State} (h : s.Good) : s.tick.Good := by
  have hp : s.tick.params = s.params := s.tick_outside.params
  refine ⟨s.tick_busGood h.bus, by rw [hp]; exact h.params, fun hr => ?_⟩
  rw [hp] at hr
  exact State.tick_sprite0Hit hr (h.sprite0 hr)

/-- Settles O35: every part of a step keeps the invariant. -/
theorem stepKeepsInvariant : Obligations.StepKeepsInvariant := by
  intro s t hinv hs
  rw [State.inv_iff_good] at hinv ⊢
  refine step_induct hs ?_ ?_ ?_ ?_ ?_ ?_ (fun _ h => h.tick) hinv
  · exact fun u a h => h.congr (State.cpuRead_busGood h.bus a) (u.cpuRead_params a) (u.cpuRead_samePipeline a).sprite0Hit
  · exact fun u a v h => h.congr (State.cpuWrite_busGood h.bus a v) (u.cpuWrite_params a v) (u.cpuWrite_samePipeline a v).sprite0Hit
  · exact fun u _ _ _ _ _ _ _ h => h.congr (h.bus.congr rfl) rfl rfl
  iterate 3 exact fun u _ h => h.congr (h.bus.congr rfl) rfl rfl

/-! ## What instructions and steps leave unchanged -/

/-- What no run changes of a cartridge (10_state R40, 21 R102, R106, R128). -/
structure Cart.SameConfiguration (c c' : Cart) : Prop where
  image : c'.image = c.image
  hasId : ∀ k, c'.regs.hasId k = c.regs.hasId k
  chrRom : c.image.chrIsRam = false → c'.chr = c.chr
  fourScreen : c.image.mirroring = .fourScreen → c'.mirroring = c.mirroring
  counter : ∀ r, c.regs = .dual r → ∃ r', c'.regs = .dual r' ∧ r'.irqCounter = r.irqCounter

theorem Cart.SameConfiguration.refl (c : Cart) : c.SameConfiguration c :=
  ⟨rfl, fun _ => rfl, fun _ => rfl, fun _ => rfl, fun r h => ⟨r, h, rfl⟩⟩

theorem Cart.SameConfiguration.trans {c c' c'' : Cart} (h : c.SameConfiguration c') (h' : c'.SameConfiguration c'') : c.SameConfiguration c'' where
  image := h'.image.trans h.image
  hasId k := (h'.hasId k).trans (h.hasId k)
  chrRom hr := (h'.chrRom (by rw [h.image]; exact hr)).trans (h.chrRom hr)
  fourScreen hm := (h'.fourScreen (by rw [h.image]; exact hm)).trans (h.fourScreen hm)
  counter r hr := by
    obtain ⟨r', hr', e⟩ := h.counter r hr
    obtain ⟨r'', hr'', e'⟩ := h'.counter r' hr'
    exact ⟨r'', hr'', e'.trans e⟩

theorem Cart.Writes.sameConfiguration {c c' : Cart} {a : Addr} (w : c.Writes c' a) : c.SameConfiguration c' where
  image := w.image
  hasId := w.regs.hasId
  chrRom _ := w.chr
  fourScreen hm := w.mirroring.resolve_right fun h => h.1 hm
  counter := w.regs.counter

theorem Cart.ppuWrite_sameConfiguration (c : Cart) (a : Nat) (v : Byte) : c.SameConfiguration (c.ppuWrite a v) where
  image := c.ppuWrite_image a v
  hasId k := by rw [Cart.ppuWrite_regs]
  chrRom hr := by rw [Cart.ppuWrite_chr, hr]; rfl
  fourScreen _ := c.ppuWrite_mirroring a v
  counter r hr := ⟨r, by rw [Cart.ppuWrite_regs]; exact hr, rfl⟩

theorem State.cpuWrite_sameConfiguration (s : State) (a : Addr) (v : Byte) : s.cart.SameConfiguration (s.cpuWrite a v).cart := by
  rcases s.cpuWrite_cart a v with h | ⟨-, h⟩ | ⟨-, b, h⟩ <;> rw [h]
  · exact .refl _
  · exact (s.cart.cpuWrite_writes a v).sameConfiguration
  · exact s.cart.ppuWrite_sameConfiguration b v

/-- What no instruction touches (10_state R30, R32, R44). -/
structure State.InstrFrame (s t : State) : Prop where
  nmiPending : t.nmiPending = s.nmiPending
  halted : t.halted = s.halted
  params : t.params = s.params
  events : t.events = s.events
  cart : s.cart.SameConfiguration t.cart
  ppu : s.ppu.SamePipeline t.ppu

theorem State.InstrFrame.refl (s : State) : s.InstrFrame s := ⟨rfl, rfl, rfl, rfl, .refl _, .refl _⟩

theorem State.InstrFrame.trans {s t u : State} (h : s.InstrFrame t) (h' : t.InstrFrame u) : s.InstrFrame u where
  nmiPending := h'.nmiPending.trans h.nmiPending
  halted := h'.halted.trans h.halted
  params := h'.params.trans h.params
  events := h'.events.trans h.events
  cart := h.cart.trans h'.cart
  ppu := h.ppu.trans h'.ppu

theorem State.cpuRead_instrFrame (s : State) (a : Addr) : s.InstrFrame (s.cpuRead a).2 :=
  ⟨s.cpuRead_nmiPending a, s.cpuRead_halted a, s.cpuRead_params a, s.cpuRead_events a, by rw [State.cpuRead_cart]; exact .refl _,
    s.cpuRead_samePipeline a⟩

theorem State.cpuWrite_instrFrame (s : State) (a : Addr) (v : Byte) : s.InstrFrame (s.cpuWrite a v) :=
  ⟨s.cpuWrite_nmiPending a v, s.cpuWrite_halted a v, s.cpuWrite_params a v, s.cpuWrite_events a v, s.cpuWrite_sameConfiguration a v,
    s.cpuWrite_samePipeline a v⟩

/-- Settles O30: reads, writes and changes of the processor's registers keep the frame. -/
theorem instructionFrame : Obligations.InstructionFrame := by
  intro i s t he
  obtain ⟨hn, hh, hp, hev, hc, hpipe⟩ : s.InstrFrame t := exec_induct he (fun u a h => h.trans (u.cpuRead_instrFrame a))
    (fun _ u a v h => h.trans (u.cpuWrite_instrFrame a v)) (fun u _ _ _ _ _ _ _ h => ⟨h.1, h.2, h.3, h.4, h.5, h.6⟩) (.refl s)
  exact ⟨hn, hh, hp, hev, hc.image, hc.hasId, hpipe.position, hpipe.slots, hpipe.secondaryOam, hpipe.sprite0Hit, hpipe.spriteOverflow,
    hpipe.sprCount, hpipe.secCount, hpipe.spr0InSlot0, hpipe.secHasSpr0⟩

/-- What reads leave alone: all memory, and all of the picture unit but the three fields a read can change (20_memory R77). -/
structure State.ReadFrame (s t : State) : Prop where
  ram : t.ram = s.ram
  cart : t.cart = s.cart
  ppu : t.ppu = { s.ppu with vblank := t.ppu.vblank, w := t.ppu.w, vramAddr := t.ppu.vramAddr }

theorem State.cpuRead_readFrame {s t : State} (h : s.ReadFrame t) (a : Addr) : s.ReadFrame (t.cpuRead a).2 := by
  obtain ⟨vb, w, va, hp⟩ := t.cpuRead_ppu a
  exact ⟨(t.cpuRead_ram a).trans h.ram, (t.cpuRead_cart a).trans h.cart, by rw [hp, h.ppu]⟩

/-- A byte read without side effect is a byte of RAM or of the cartridge, or open bus. -/
theorem State.peek_quiet {s t : State} {a : Addr} (hq : quiet a = true) (hr : t.ram = s.ram) (hc : t.cart = s.cart) : t.peek a = s.peek a := by
  revert hq
  unfold quiet State.peek State.cpuRead
  cases regionOf a with
  | ram i => exact fun _ => congrArg (fun m : Memory => m.read i) hr
  | cartridge => exact fun _ => congrArg (fun c : Cart => c.cpuRead a) hc
  | ppu r => exact nofun
  | input1 => exact nofun
  | input2 => exact nofun
  | dma => exact fun _ => rfl
  | audio => exact fun _ => rfl
  | reserved => exact fun _ => rfl

/-- Settles O31: without a store, an instruction is reads and changes of the processor's registers. -/
theorem nonStoringFrame : Obligations.NonStoringFrame := by
  intro i s t hst he
  have h : s.ReadFrame t := exec_induct he (fun u a h => State.cpuRead_readFrame h a)
    (fun hs => by rw [hst] at hs; cases hs) (fun u _ _ _ _ _ _ _ h => ⟨h.1, h.2, h.3⟩) ⟨rfl, rfl, rfl⟩
  exact ⟨h.ram, h.cart, h.ppu, fun a hq => State.peek_quiet hq h.ram h.cart⟩

/-- Settles O41: only bus writes reach the cartridge, and they keep its configuration. -/
theorem configurationIsImmutable : Obligations.ConfigurationIsImmutable := by
  intro s t hs
  have h : t.params = s.params ∧ s.cart.SameConfiguration t.cart := by
    refine step_induct (P := fun u => u.params = s.params ∧ s.cart.SameConfiguration u.cart) hs ?_ ?_ ?_ ?_ ?_ ?_ ?_ ⟨rfl, .refl _⟩
    · exact fun u a h => ⟨(u.cpuRead_params a).trans h.1, by rw [State.cpuRead_cart]; exact h.2⟩
    · exact fun u a v h => ⟨(u.cpuWrite_params a v).trans h.1, h.2.trans (u.cpuWrite_sameConfiguration a v)⟩
    · exact fun u _ _ _ _ _ _ _ h => h
    iterate 3 exact fun _ _ h => h
    · exact fun u h => ⟨u.tick_outside.params.trans h.1, by rw [u.tick_outside.cart]; exact h.2⟩
  obtain ⟨hp, hc⟩ := h
  exact ⟨hc.image, hp, hc.hasId, hc.chrRom, hc.fourScreen, hc.counter⟩

/-! ## Reset and power-on -/

/-- `reset()` as an equation: the reset vector lies in the cartridge window, so its two reads have no side effect. -/
theorem State.resetProcessor_eq (s : State) :
    s.resetProcessor =
      { s with
        sp := 0xFD, flags := { s.flags with i := true, b := true }, nmiPending := false
        pc := word (s.cart.cpuRead 0xFFFD) (s.cart.cpuRead 0xFFFC) } := by
  unfold State.resetProcessor
  simp only [State.read16_cartridge _ (a := resetVector) (by decide) (by decide)]
  rfl

theorem State.peek_cartridge (s : State) {a : Addr} (h : 0x4020 ≤ a.toNat) : s.peek a = s.cart.cpuRead a :=
  congrArg Prod.fst (State.cpuRead_cartridge (regionOf_vector h))

/-- Settles O8, by the equation of `reset()`; the vector's two addresses are read without side effect. -/
theorem processorReset : Obligations.ProcessorReset := by
  refine ⟨State.resetProcessor_eq, fun cart params ram => ?_⟩
  dsimp only
  rw [State.peek_cartridge _ (by decide), State.peek_cartridge _ (by decide), powerOn, State.resetProcessor_eq]
  exact ⟨rfl, rfl, rfl, rfl⟩

/-- What a cartridge that the loader accepts is made of (21 R100 to R102). -/
theorem loadImage_ok {bytes : List Byte} {cart : Cart} (h : loadImage bytes = .ok cart) :
    ∃ (image : Image) (regs : MapperRegs) (prg chr : List Byte),
      cart = image.insert regs (Memory.ofBytes chr) ∧ initialRegs image.mapperId = some regs ∧ 1 ≤ image.prgBanks
        ∧ image.prg = Memory.ofBytes prg ∧ prg.length ≤ image.prgSize ∧ chr.length ≤ 8192 * image.chrBanks := by
  unfold loadImage at h
  dsimp only at h
  split at h
  · cases h
  split at h
  · cases h
  split at h
  · cases h
  rename_i hbanks
  split at h
  · cases h
  rename_i regs hregs
  cases h
  refine ⟨_, regs, _, _, rfl, hregs, ?_, rfl, List.length_take_le _ _, List.length_take_le _ _⟩
  exact Nat.pos_of_ne_zero fun e => hbanks (BitVec.eq_of_toNat_eq e)

/-- The registers of a variant right after load (10_state R49): those of its identifier, within their bounds. -/
theorem initialRegs_good {id : Byte} {regs : MapperRegs} (h : initialRegs id = some regs) : regs.hasId id = true ∧ regs.inBounds = true := by
  unfold initialRegs at h
  repeat' split at h
  all_goals cases h
  all_goals subst id
  all_goals decide

/-- The loader gives good cartridges. -/
theorem loadImage_good {bytes : List Byte} {cart : Cart} (h : loadImage bytes = .ok cart) : cart.Good := by
  obtain ⟨image, regs, prg, chr, rfl, hregs, hbanks, hprg, hprgLen, hchrLen⟩ := loadImage_ok h
  obtain ⟨hid, hbounds⟩ := initialRegs_good hregs
  have hchrSize : 8192 * image.chrBanks ≤ image.chrSize := by
    unfold Image.chrSize
    split <;> omega
  refine ⟨hbanks, ?_, Memory.fits_ofBytes chr (hchrLen.trans hchrSize), rfl, Iff.rfl, hid, hbounds⟩
  show image.prg.fits image.prgSize = true
  rw [hprg]
  exact Memory.fits_ofBytes prg hprgLen

/-- Power-on gives a good state around any good cartridge. -/
theorem powerOn_inv {cart : Cart} {params : Params} {ram : Memory} (hc : cart.Good) (hp : params.wf = true) (hr : ram.fits 2048 = true) :
    (powerOn cart params ram).Inv := by
  have ppu : Ppu.powerOn.Good cart.image.nametableSize := ⟨by decide, by decide, by decide, by decide, rfl, rfl, rfl, rfl⟩
  rw [powerOn, State.resetProcessor_eq]
  exact ⟨hr, hc, ppu, Nat.zero_le 8, Nat.zero_le 8, hp, fun _ => rfl⟩

/-- `State.reset` is power-on with the placeholder cartridge (log 1). -/
theorem State.reset_eq : State.reset = powerOn resetCart defaultParams [] := by
  rw [powerOn, State.resetProcessor_eq]
  rfl

/-- Settles O36: the loader gives good cartridges, and so is the placeholder. -/
theorem invariantHoldsAtReset : Obligations.InvariantHoldsAtReset := by
  refine ⟨?_, fun bytes cart params ram hload hp hr => powerOn_inv (loadImage_good hload) hp hr⟩
  rw [State.reset_eq]
  exact powerOn_inv (by decide) (by decide) rfl

/-- Settles O9: power-on by the equation of `reset()`, the mapper's registers by the inversion of `loadImage`. -/
theorem powerOnState : Obligations.PowerOnState := by
  refine ⟨fun cart params ram => ?_, fun bytes cart hload => ?_, ?_, rfl⟩
  · rw [powerOn, State.resetProcessor_eq]
    rfl
  · obtain ⟨image, regs, prg, chr, rfl, hregs, -, -, -, hchrLen⟩ := loadImage_ok hload
    have at0 {k : Byte} {r : MapperRegs} (hr : initialRegs k = some r) (hk : image.mapperId = k) : regs = r :=
      Option.some.inj (hregs.symm.trans (hk ▸ hr))
    refine ⟨at0 rfl, at0 rfl, at0 rfl, at0 rfl, rfl, rfl, fun hram => ?_⟩
    have hbanks : image.chrBanks = 0 := eq_of_beq hram
    have hnil : chr = [] := List.length_eq_zero_iff.mp (by omega)
    rw [hnil]
    rfl
  · rw [State.reset_eq]
    rfl

/-! ## The packed status -/

/-- A bit appended below a word. -/
theorem toNat_append_bit {n : Nat} (v : BitVec n) (b : BitVec 1) : (v ++ b).toNat = 2 * v.toNat + b.toNat := by
  rw [BitVec.toNat_append, ← Nat.shiftLeft_add_eq_or_of_lt b.isLt, Nat.shiftLeft_eq, Nat.mul_comm, Nat.pow_one]

/-- The packed status as a number (10_state R27). -/
theorem Flags.pack_toNat (f : Flags) :
    f.pack.toNat = 128 * f.n.toNat + 64 * f.v.toNat + 32 + 16 * f.b.toNat + 8 * f.d.toNat + 4 * f.i.toNat + 2 * f.z.toNat + f.c.toNat := by
  simp only [Flags.pack, toNat_append_bit, BitVec.toNat_ofBool]
  rw [show (1#1).toNat = 1 from rfl]
  omega

/-- Each flag stands at its own bit. -/
theorem Flags.unpack_pack (f : Flags) : Flags.unpack f.pack = f := by
  simp only [Flags.unpack, Flags.pack, BitVec.getLsbD_append]
  simp

/-- Settles O27: the bit places, and a check of the 256 bytes for the bit that is not stored. -/
theorem statusPacking : Obligations.StatusPacking :=
  ⟨Flags.pack_toNat, by decide, Flags.unpack_pack⟩

end Sys2Proof.Machine
end

section
/-! PROOFS. The two buses and the devices on them (20_memory): what each window of the processor's space does with a read and a write, what a store leaves
alone, the OAM copy, the input devices, and the picture unit's own space. -/

namespace Sys2Proof.Machine

/-! ## The fetch -/

/-- A step that fetches `i` is `exec i` in the state the fetch left, and then the dots of the round. -/
theorem step_eq_roundAfter {s t : State} {i : Instr} (h : s.Running) (hn : s.nmiPending = false) (hf : (s.setEvents []).fetch = (some i, t)) :
    step s = roundAfter (exec i t) s := by
  rw [step_exec h hn hf, exec_eq_perform]
  rfl

/-- Settles O6, by the shapes an opcode can have. -/
theorem fetchReadsInOrder : Obligations.FetchReadsInOrder := by
  intro s hr hn op b1 b2
  have hpc : s.pc + 1 + 1 = s.pc + 2 := by rw [BitVec.add_assoc]; rfl
  have fetched {i : Instr} {t : State} (hf : (s.setEvents []).fetch = (some i, t)) := step_eq_roundAfter hr hn hf
  refine ⟨fun i hs => fetched ?_, fun n i hs => fetched ?_, fun f hs => fetched ?_, fun f hs => fetched ?_⟩
  all_goals
    unfold State.fetch
    simp only [State.setEvents_pc, State.setEvents_params]
    rw [show shapeOf s.params.undocNops ((s.setEvents []).cpuRead s.pc).1 = _ from hs]
  -- the two operand bytes of the last shape are one `read16`
  simp only [State.read16, hpc]
  rfl

/-! ## The windows of the processor's space (R61) -/

theorem regionOf_low {a : Addr} (h : a.toNat < 0x2000) : regionOf a = .ram (a.toNat % 0x0800) := by
  unfold regionOf
  rw [if_pos h]

theorem regionOf_window {a : Addr} (h : 0x2000 ≤ a.toNat) (h' : a.toNat < 0x4000) : regionOf a = .ppu (ppuRegOf a) := by
  unfold regionOf
  rw [if_neg (by omega), if_pos h']

/-- From 0x4000 to 0x401F lie the DMA register, the input devices, and nothing else that answers. -/
theorem regionOf_io {a : Addr} (h : 0x4000 ≤ a.toNat) (h' : a.toNat < 0x4020) :
    (a.toNat = 0x4014 ∧ regionOf a = .dma) ∨ (a.toNat = 0x4016 ∧ regionOf a = .input1) ∨ (a.toNat = 0x4017 ∧ regionOf a = .input2)
      ∨ regionOf a = .audio ∨ regionOf a = .reserved := by
  unfold regionOf
  rw [if_neg (by omega), if_neg (by omega)]
  repeat' split
  all_goals simp_all

theorem regionOf_eq_dma {a : Addr} (h : regionOf a = .dma) : a.toNat = 0x4014 := by
  revert h
  unfold regionOf
  repeat' split
  all_goals simp_all

theorem regionOf_eq_ppu {a : Addr} {r : PpuReg} (h : regionOf a = .ppu r) : 0x2000 ≤ a.toNat ∧ a.toNat < 0x4000 ∧ ppuRegOf a = r := by
  revert h
  unfold regionOf
  repeat' split
  all_goals simp_all

/-- Settles O43, by the laws of RAM cells and of arrays. -/
theorem ramMirror : Obligations.RamMirror := by
  intro s a b v hw ha hb
  have write := State.cpuWrite_ramCell (s := s) (regionOf_low ha) v
  refine ⟨write, ?_⟩
  have peek : s.peek b = s.ram.read (b.toNat % 0x0800) := congrArg Prod.fst (State.cpuRead_ramCell (regionOf_low hb))
  rw [write, State.cpuRead_ramCell (regionOf_low hb), State.setRam_ram, Memory.read_write s.ram _ _ v hw, peek]
  simp only [eq_comm]

/-- Every address outside the picture unit's window and the input devices' two is quiet (R77). -/
theorem quiet_of_outside {a : Addr} (h : a.toNat < 0x2000 ∨ 0x4000 ≤ a.toNat) (h1 : a.toNat ≠ 0x4016) (h2 : a.toNat ≠ 0x4017) : quiet a = true := by
  unfold quiet
  rcases h with h | h
  · rw [regionOf_low h]
  by_cases h' : a.toNat < 0x4020
  · rcases regionOf_io h h' with ⟨-, e⟩ | ⟨e, -⟩ | ⟨e, -⟩ | e | e
    · rw [e]
    · exact absurd e h1
    · exact absurd e h2
    · rw [e]
    · rw [e]
  · rw [regionOf_vector (by omega)]

theorem State.cpuWrite_cartridge {s : State} {a : Addr} (h : 0x4020 ≤ a.toNat) (v : Byte) : s.cpuWrite a v = s.setCart (s.cart.cpuWrite a v) := by
  unfold State.cpuWrite
  rw [regionOf_vector h]

/-- No variant declares an address below 0x6000 (21 R111). -/
theorem Cart.cpuRead_undeclared (c : Cart) {a : Addr} (h : a.toNat < 0x6000) : c.cpuRead a = 0x00 := by
  unfold Cart.cpuRead
  rw [if_neg (by omega), if_neg (by simp; omega)]
  rfl

theorem Cart.cpuWrite_undeclared (c : Cart) {a : Addr} (h : a.toNat < 0x6000) (v : Byte) : c.cpuWrite a v = c := by
  unfold Cart.cpuWrite
  rw [if_neg (by omega), if_neg (by simp; omega)]

/-- Settles O49, by the windows from 0x4000 on. -/
theorem silentWindows : Obligations.SilentWindows := by
  intro s a v
  refine ⟨fun h h1 h2 => State.cpuRead_quiet (quiet_of_outside h h1 h2), fun h h' h1 h2 => ?_, fun h h' h1 h2 => ?_, fun h h' => ⟨?_, ?_⟩⟩
  · unfold State.cpuRead
    rcases regionOf_io h h' with ⟨-, e⟩ | ⟨e, -⟩ | ⟨e, -⟩ | e | e
    · rw [e]; rfl
    · exact absurd e h1
    · exact absurd e h2
    · rw [e]; rfl
    · rw [e]
  · unfold State.cpuWrite
    rcases regionOf_io h h' with ⟨e, -⟩ | ⟨e, -⟩ | ⟨-, e⟩ | e | e
    · exact absurd e h1
    · exact absurd e h2
    · rw [e]
    · rw [e]
    · rw [e]
  · rw [State.cpuRead_cartridge (regionOf_vector h), Cart.cpuRead_undeclared _ h']
  · rw [State.cpuWrite_cartridge h, Cart.cpuWrite_undeclared _ h']
    rfl

/-! ## The picture unit's registers -/

/-- The two registers through which a write reaches memory of the picture unit, by their index (61 R356). -/
theorem ppuRegOf_memory (a : Addr) : (ppuRegOf a = .oamData ↔ a.toNat % 8 = 4) ∧ (ppuRegOf a = .data ↔ a.toNat % 8 = 7) := by
  have h : a.toNat % 8 < 8 := Nat.mod_lt _ (by decide)
  unfold ppuRegOf
  generalize a.toNat % 8 = k at h
  interval_cases k <;> simp

/-- The status byte as a number (61 R362). -/
theorem Ppu.statusByte_toNat (p : Ppu) :
    p.statusByte.toNat = 128 * p.vblank.toNat + 64 * p.sprite0Hit.toNat + 32 * p.spriteOverflow.toNat + p.lastWrite.toNat % 32 := by
  have h : (p.lastWrite.setWidth 5).toNat < 2 ^ 5 := BitVec.isLt _
  unfold Ppu.statusByte
  rw [BitVec.toNat_append, ← Nat.shiftLeft_add_eq_or_of_lt h, Nat.shiftLeft_eq, toNat_append_bit, toNat_append_bit]
  simp only [BitVec.toNat_ofBool, BitVec.toNat_setWidth]
  omega

/-- Settles O44, register by register. -/
theorem registerReads : Obligations.RegisterReads := by
  intro s a h h'
  have read (r : PpuReg) (hr : ppuRegOf a = r) : s.cpuRead a = s.regRead r := by
    unfold State.cpuRead
    rw [regionOf_window h h', hr]
  refine ⟨fun e => ?_, fun e => ?_, fun e => ?_, fun e => ?_⟩
  · rw [read .status (by simp [ppuRegOf, e])]
    exact ⟨s.ppu.statusByte_toNat, rfl⟩
  · exact read .oamData (by simp [ppuRegOf, e])
  · exact read .data (by simp [ppuRegOf, e])
  · simp only [List.mem_cons, List.not_mem_nil, or_false] at e
    rcases e with e | e | e | e | e
    · exact read .control (by simp [ppuRegOf, e])
    · exact read .mask (by simp [ppuRegOf, e])
    · exact read .oamAddress (by simp [ppuRegOf, e])
    · exact read .scroll (by simp [ppuRegOf, e])
    · exact read .address (by simp [ppuRegOf, e])

/-! ## The picture unit's space (R84 to R86) -/

/-- The space has 14 address bits. -/
theorem ppuCell_congr (c : Cart) {a b : Addr} (h : a.toNat % 0x4000 = b.toNat % 0x4000) : ppuCell c a = ppuCell c b := by
  unfold ppuCell
  rw [h]

/-- The mirroring modes, written as the table of 21 R105. -/
theorem mirrorBank_eq (m : Mirroring) {t : Nat} (h : t < 4) : mirrorBank m t = (nametableBanks m).getD t 0 := by
  have cases4 : t = 0 ∨ t = 1 ∨ t = 2 ∨ t = 3 := by omega
  rcases cases4 with rfl | rfl | rfl | rfl <;> cases m <;> rfl

theorem ppuCell_pattern (c : Cart) {a : Addr} (h : a.toNat < 0x2000) : ppuCell c a = .pattern a.toNat := by
  unfold ppuCell
  rw [Nat.mod_eq_of_lt (show a.toNat < 0x4000 by omega)]
  exact if_pos h

theorem ppuCell_nametable (c : Cart) {a : Addr} (h : 0x2000 ≤ a.toNat) (h' : a.toNat < 0x3000) : ppuCell c a = .nametable (c.mirror a.toNat) := by
  unfold ppuCell
  rw [Nat.mod_eq_of_lt (show a.toNat < 0x4000 by omega)]
  exact (if_neg (by omega)).trans (if_pos h')

theorem ppuCell_mirror (c : Cart) {a : Addr} (h : 0x3000 ≤ a.toNat) (h' : a.toNat < 0x3F00) :
    ppuCell c a = .nametable (c.mirror (a.toNat - 0x1000)) := by
  unfold ppuCell
  rw [Nat.mod_eq_of_lt (show a.toNat < 0x4000 by omega)]
  exact (if_neg (by omega)).trans ((if_neg (by omega)).trans (if_pos h'))

theorem ppuCell_palette (c : Cart) {a : Addr} (h : 0x3F00 ≤ a.toNat) (h' : a.toNat < 0x4000) : ppuCell c a = .palette (palIndex a.toNat) := by
  unfold ppuCell
  rw [Nat.mod_eq_of_lt h']
  exact (if_neg (by omega)).trans ((if_neg (by omega)).trans (if_neg (by omega)))

theorem palIndex_eq (a : Nat) : palIndex a = if a % 32 ∈ [16, 20, 24, 28] then a % 32 - 16 else a % 32 := by
  simp [palIndex]

theorem Cart.mirror_eq (c : Cart) {a : Nat} (h : 0x2000 ≤ a) (h' : a < 0x3000) :
    c.mirror a = 0x400 * (nametableBanks c.mirroring).getD (a / 0x400 % 4) 0 + a % 0x400 := by
  have table : (a - 0x2000) / 1024 = a / 0x400 % 4 := by omega
  unfold Cart.mirror
  rw [table, mirrorBank_eq _ (Nat.mod_lt _ (by decide)), Nat.mul_comm]

/-- Settles O47, range by range. -/
theorem ppuSpace : Obligations.PpuSpace := by
  intro c a
  refine ⟨ppuCell_congr c (by simp), ppuCell_pattern c, fun h h' => ?_, fun h h' => ?_, fun h h' => ?_, ?_⟩
  · have e : (a - 0x1000).toNat = a.toNat - 0x1000 := BitVec.toNat_sub_of_le (BitVec.le_def.mpr (show 0x1000 ≤ a.toNat by omega))
    rw [ppuCell_mirror c h h', ppuCell_nametable c (a := a - 0x1000) (by omega) (by omega), e]
  · rw [ppuCell_palette c h h', palIndex_eq]
  · rw [ppuCell_nametable c h h', Cart.mirror_eq c h h']
  · rintro s rfl
    unfold State.ppuRead
    refine ⟨fun k e => ?_, fun k e => ?_, fun k e => ?_⟩ <;> rw [e]

/-! ## The input devices (R67) -/

/-- A button as the byte a read of it gives. -/
def buttonByte (pressed : Bool) : Byte := BitVec.ofNat 8 pressed.toNat

/-- A read while the strobe is held gives button 0. -/
theorem InputDevice.read_held (cursor : Nat) (b : Byte) (bs : List Byte) (n : Nat) :
    InputDevice.read { strobe := true, cursor := cursor, samples := b :: bs } n
      = (buttonByte (b.getLsbD 0), { strobe := true, cursor := 0, samples := bs }, n + 1) := by
  simp only [InputDevice.read, buttonState, buttonByte, if_true, show (0 : Nat) < 8 by decide]
  cases b.getLsbD 0 <;> rfl

/-- A read after the strobe gives the button of the cursor, and moves it. -/
theorem InputDevice.read_released {cursor : Nat} (h : cursor < 8) (b : Byte) (bs : List Byte) (n : Nat) :
    InputDevice.read { strobe := false, cursor := cursor, samples := b :: bs } n
      = (buttonByte (b.getLsbD cursor), { strobe := false, cursor := cursor + 1, samples := bs }, n + 1) := by
  simp only [InputDevice.read, buttonState, buttonByte, h, if_true, Bool.false_eq_true, if_false]
  cases b.getLsbD cursor <;> rfl

/-- A read of `a` is one of the device that `place` puts into a state, with the count of free values beside it. -/
def ReadsDevice (a : Addr) (place : InputDevice → Nat → State) : Prop :=
  ∀ d n, (place d n).cpuRead a = ((d.read n).1, place (d.read n).2.1 (d.read n).2.2)

theorem readsDevice_input1 (s : State) : ReadsDevice 0x4016 fun d n => { s with input1 := d, drawn := n } := fun _ _ => rfl

theorem readsDevice_input2 (s : State) : ReadsDevice 0x4017 fun d n => { s with input2 := d, drawn := n } := fun _ _ => rfl

theorem readTimes_held {a : Addr} {place : InputDevice → Nat → State} (hp : ReadsDevice a place) (rest : List Byte) :
    ∀ (samples : List Byte) (cursor n : Nat),
      (readTimes samples.length a (place { strobe := true, cursor := cursor, samples := samples ++ rest } n)).1
        = samples.map fun b => buttonByte (b.getLsbD 0)
  | [], _, _ => rfl
  | b :: bs, cursor, n => by
    simp only [List.length_cons, List.cons_append, readTimes, hp _ _, InputDevice.read_held, List.map_cons, readTimes_held hp rest bs]

theorem readTimes_released {a : Addr} {place : InputDevice → Nat → State} (hp : ReadsDevice a place) (rest : List Byte) :
    ∀ (samples : List Byte) (cursor n : Nat), cursor + samples.length ≤ 8 →
      readTimes samples.length a (place { strobe := false, cursor := cursor, samples := samples ++ rest } n)
        = ((List.range samples.length).map fun k => buttonByte ((samples.getD k 0).getLsbD (cursor + k)),
            place { strobe := false, cursor := cursor + samples.length, samples := rest } (n + samples.length))
  | [], _, _, _ => rfl
  | b :: bs, cursor, n, h => by
    rw [List.length_cons] at h
    have later := readTimes_released hp rest bs (cursor + 1) (n + 1) (by omega)
    simp only [List.length_cons, List.cons_append, readTimes, hp _ _, InputDevice.read_released (show cursor < 8 by omega), later,
      List.range_succ_eq_map, List.map_cons, List.map_map, Function.comp_def, List.getD_cons_zero, List.getD_cons_succ, Nat.add_zero,
      Nat.add_assoc, Nat.add_comm 1]

theorem InputDevice.write_strobe (d : InputDevice) {v : Byte} (hv : v.getLsbD 0 = true) : d.write v = { d with strobe := true, cursor := 0 } := by
  simp only [InputDevice.write, hv, if_true]

theorem InputDevice.write_release (d : InputDevice) {v : Byte} (hv : v.getLsbD 0 = false) : d.write v = { d with strobe := false } := by
  simp only [InputDevice.write, hv, Bool.false_eq_true, if_false]

theorem State.cpuWrite_strobe (s : State) (v : Byte) : s.cpuWrite 0x4016 v = { s with input1 := s.input1.write v, input2 := s.input2.write v } := rfl

/-- Settles O50: both devices by the same two lemmas about repeated reads. -/
theorem inputProtocol : Obligations.InputProtocol := by
  intro s v w samples rest hv hw h8 held t buttons
  have hheld : held = { s with input1 := { s.input1 with strobe := true, cursor := 0 }, input2 := { s.input2 with strobe := true, cursor := 0 } } := by
    show s.cpuWrite 0x4016 v = _
    rw [State.cpuWrite_strobe, InputDevice.write_strobe _ hv, InputDevice.write_strobe _ hv]
  have ht : t = { s with input1 := { s.input1 with strobe := false, cursor := 0 }, input2 := { s.input2 with strobe := false, cursor := 0 } } := by
    show held.cpuWrite 0x4016 w = _
    rw [State.cpuWrite_strobe, InputDevice.write_release _ hw, InputDevice.write_release _ hw, hheld]
  have protocol {a : Addr} {put : State → InputDevice → Nat → State} (hp : ∀ u, ReadsDevice a (put u))
      (hr : t = put t { strobe := false, cursor := 0, samples := samples ++ rest } s.drawn)
      (hh : held = put held { strobe := true, cursor := 0, samples := samples ++ rest } s.drawn) :
      (readTimes 8 a t).1 = buttons ∧ (readTimes 8 a t).2 = put t { strobe := false, cursor := 8, samples := rest } (s.drawn + 8)
        ∧ (readTimes 8 a held).1 = samples.map fun b => buttonByte (b.getLsbD 0) := by
    have released := readTimes_released (hp t) rest samples 0 s.drawn (by omega)
    have strobed := readTimes_held (hp held) rest samples 0 s.drawn
    rw [h8, ← hr] at released
    rw [h8, ← hh] at strobed
    refine ⟨?_, congrArg Prod.snd released, strobed⟩
    rw [released]
    simp only [Nat.zero_add]
    rfl
  refine ⟨fun hs => protocol readsDevice_input1 ?_ ?_, fun hs => protocol readsDevice_input2 ?_ ?_, ht⟩
  · rw [ht, ← hs]
  · rw [hheld, ← hs]
  · rw [ht, ← hs]
  · rw [hheld, ← hs]

/-! ## The OAM copy (R87) -/

/-- The copy as a fold: its last `n` bytes are those numbered from `256 - n` on. -/
theorem State.oamDmaLast_eq_foldl (v : Byte) :
    ∀ (n : Nat) (s : State), n ≤ 256 →
      State.oamDmaLast v n s = (List.range' (256 - n) n).foldl (fun t k => t.oamDmaByte v (BitVec.ofNat 8 k)) s
  | 0, _, _ => rfl
  | n + 1, s, h => by
    rw [State.oamDmaLast, State.oamDmaLast_eq_foldl v n _ (by omega), List.range'_succ, List.foldl_cons, show 256 - (n + 1) = 255 - n by omega,
      show 255 - n + 1 = 256 - n by omega]

theorem State.oamDma_eq_foldl (s : State) (v : Byte) :
    s.oamDma v = (List.range 256).foldl (fun t k => t.oamDmaByte v (BitVec.ofNat 8 k)) s := by
  rw [List.range_eq_range']
  exact State.oamDmaLast_eq_foldl v 256 s (Nat.le_refl _)

/-- The state with other bytes in OAM. -/
def State.withOam (s : State) (m : Memory) : State := s.setPpu { s.ppu with oam := m }

/-- From a quiet address the copy of a byte changes OAM alone. -/
theorem State.oamDmaByte_quiet {s : State} {v i : Byte} (h : quiet (word v i) = true) :
    s.oamDmaByte v i = s.withOam (s.ppu.oam.write (s.ppu.oamAddr + i).toNat (s.peek (word v i))) := by
  unfold State.oamDmaByte State.withOam State.peek
  simp only [State.cpuRead_quiet h]

/-- The first `n` bytes of the copy from a page without side effects. -/
theorem State.oamDma_quiet {s : State} {v : Byte} (hq : ∀ i, quiet (word v i) = true) (hw : s.ppu.oam.wf = true) :
    ∀ n ≤ 256, ∃ m : Memory, m.wf = true
      ∧ (List.range n).foldl (fun t k => t.oamDmaByte v (BitVec.ofNat 8 k)) s = s.withOam m
      ∧ ∀ k : Byte, k.toNat < n → m.read (s.ppu.oamAddr + k).toNat = s.peek (word v k)
  | 0, _ => ⟨s.ppu.oam, hw, rfl, fun _ hk => absurd hk (Nat.not_lt_zero _)⟩
  | n + 1, hn => by
    obtain ⟨m, hm, hfold, hread⟩ := State.oamDma_quiet hq hw n (by omega)
    have hnum : (BitVec.ofNat 8 n).toNat = n := Nat.mod_eq_of_lt (show n < 2 ^ 8 by omega)
    have hpeek : (s.withOam m).peek (word v (BitVec.ofNat 8 n)) = s.peek (word v (BitVec.ofNat 8 n)) := State.peek_quiet (hq _) rfl rfl
    refine ⟨m.write (s.ppu.oamAddr + BitVec.ofNat 8 n).toNat (s.peek (word v (BitVec.ofNat 8 n))), Memory.wf_write _ _ hm, ?_, fun k hk => ?_⟩
    · rw [List.range_succ, List.foldl_append, hfold, List.foldl_cons, List.foldl_nil, State.oamDmaByte_quiet (hq _), hpeek]
      rfl
    · rw [Memory.read_write m _ _ _ hm]
      by_cases e : k = BitVec.ofNat 8 n
      · rw [e, if_pos rfl]
      · have hne : k.toNat ≠ n := fun h => e (BitVec.eq_of_toNat_eq (h.trans hnum.symm))
        rw [if_neg fun h => e (BitVec.add_right_inj _ |>.mp (BitVec.eq_of_toNat_eq h)), hread k (by omega)]

/-- A page below 0x2000 or from 0x4100 on has no side effect. -/
theorem quiet_word {v : Byte} (h : v.toNat < 0x20 ∨ 0x41 ≤ v.toNat) (i : Byte) : quiet (word v i) = true := by
  have hw := word_toNat v i
  have hi := i.isLt
  exact quiet_of_outside (by omega) (by omega) (by omega)

/-- Settles O48, by the copy as a fold, and from a quiet page byte by byte. -/
theorem oamCopy : Obligations.OamCopy := by
  intro s v copyOne
  have hcopy : s.cpuWrite 0x4014 v = (List.range 256).foldl copyOne s := s.oamDma_eq_foldl v
  refine ⟨hcopy, fun hw hv => ?_⟩
  obtain ⟨m, -, hfold, hread⟩ := State.oamDma_quiet (s := s) (quiet_word hv) hw 256 (Nat.le_refl _)
  have hm : s.cpuWrite 0x4014 v = s.withOam m := hcopy.trans hfold
  rw [hm]
  exact ⟨fun k => hread k k.isLt, rfl⟩

/-! ## What a store leaves alone -/

@[simp] theorem MemMode.access_sp (m : MemMode) (s : State) : (m.access s).state.sp = s.sp := by rw [m.access_busOver]; rfl

/-- Assembling an operand is reads. -/
theorem MemMode.access_readFrame (m : MemMode) (s : State) : s.ReadFrame (m.access s).state :=
  m.access_induct (P := s.ReadFrame) (fun _ a h => State.cpuRead_readFrame h a) s ⟨rfl, rfl, rfl⟩

/-- `t` is what one write of a byte at `a` leaves, after reads from `s` and but for the end of the instruction. -/
def State.WritesAt (s t : State) (a : Addr) : Prop :=
  ∃ (u : State) (v : Byte) (length cost : Nat), s.ReadFrame u ∧ u.sp = s.sp ∧ t = (u.cpuWrite a v).finish length cost

theorem modifyMem_writesAt (f : Byte → Flags → Byte × Flags) (m : MemMode) (cost : Nat) (s : State) :
    s.WritesAt (modifyMem f m cost s) (m.access s).ea := by
  let read := (m.access s).state.cpuRead (m.access s).ea
  have h : s.ReadFrame read.2 := State.cpuRead_readFrame (m.access_readFrame s) _
  have hsp : read.2.sp = s.sp := (State.cpuRead_sp _ _).trans (m.access_sp s)
  exact ⟨read.2.setFlags (f read.1 read.2.flags).2, _, _, _, ⟨h.ram, h.cart, h.ppu⟩, hsp, rfl⟩

/-- An instruction that stores makes one write, at the address its mode computes. -/
theorem exec_writesAt {i : Instr} {m : MemMode} {s t : State} (hm : (action i).storeMode = some m) (he : exec i s = .next t) :
    s.WritesAt t (m.access s).ea := by
  rw [exec_eq_perform] at he
  cases he
  cases ha : action i with
  | store op k =>
    rw [ha] at hm
    cases hm
    exact ⟨_, _, _, _, m.access_readFrame s, m.access_sp s, rfl⟩
  | modify op k =>
    rw [ha] at hm
    cases k with
    | acc => cases hm
    | zp a => cases hm; exact modifyMem_writesAt _ _ _ s
    | zpx a => cases hm; exact modifyMem_writesAt _ _ _ s
    | abs a => cases hm; exact modifyMem_writesAt _ _ _ s
    | abx a => cases hm; exact modifyMem_writesAt _ _ _ s
  | _ => rw [ha] at hm; cases hm

/-- A write reaches one cell of RAM at most. -/
theorem State.cpuWrite_ram_read {s : State} {a : Addr} {k : Nat} (hw : s.ram.wf = true) (h : regionOf a ≠ .ram k) (v : Byte) :
    (s.cpuWrite a v).ram.read k = s.ram.read k := by
  rw [State.cpuWrite_ram]
  split
  · next i hi => exact Memory.read_write_ne _ v (fun e => h (e ▸ hi)) hw
  · rfl

/-- The processor's window does not show the graphics bytes. -/
theorem Cart.cpuRead_ppuWrite (c : Cart) (a : Nat) (v : Byte) (b : Addr) : (c.ppuWrite a v).cpuRead b = c.cpuRead b := by
  unfold Cart.ppuWrite
  split <;> rfl

/-- Below the mapper's registers a write changes what the cartridge shows at its own address only. -/
theorem State.cpuWrite_cart_read {s : State} {a b : Addr} (hw : s.cart.prgRam.wf = true) (ha : a.toNat < 0x8000)
    (h : regionOf a = .cartridge → b ≠ a) (v : Byte) : (s.cpuWrite a v).cart.cpuRead b = s.cart.cpuRead b := by
  rcases s.cpuWrite_cart a v with e | ⟨hr, e⟩ | ⟨-, k, e⟩ <;> rw [e]
  · exact Cart.cpuRead_cpuWrite_ne v ha (h hr) hw
  · exact Cart.cpuRead_ppuWrite _ _ _ _

/-- A quiet byte is one of RAM, one of the cartridge, or open bus. -/
theorem State.peek_quiet_congr {s t : State} {b : Addr} (hq : quiet b = true) (hr : ∀ k, regionOf b = .ram k → t.ram.read k = s.ram.read k)
    (hc : regionOf b = .cartridge → t.cart.cpuRead b = s.cart.cpuRead b) : t.peek b = s.peek b := by
  revert hq
  unfold quiet State.peek State.cpuRead
  cases hb : regionOf b with
  | ram k => exact fun _ => hr k hb
  | cartridge => exact fun _ => hc hb
  | ppu r => exact nofun
  | input1 => exact nofun
  | input2 => exact nofun
  | dma => exact fun _ => rfl
  | audio => exact fun _ => rfl
  | reserved => exact fun _ => rfl

/-- The memories of the picture unit that a data-register write can reach. -/
structure State.SameVideo (s t : State) : Prop where
  palette : t.ppu.palette = s.ppu.palette
  nametable : t.ppu.nametable = s.ppu.nametable
  chr : t.cart.chr = s.cart.chr

/-- OAM is written by the copy and by the OAM data register (61 R366). -/
theorem State.cpuWrite_oam (s : State) (a : Addr) (v : Byte) (hd : regionOf a ≠ .dma) (ho : regionOf a ≠ .ppu .oamData) :
    (s.cpuWrite a v).ppu.oam = s.ppu.oam := by
  unfold State.cpuWrite
  split
  case h_2 r hr =>
    cases r <;> simp only [State.regWrite, State.regAction]
    case oamData => exact absurd hr ho
    case data =>
      unfold State.ppuWrite
      split <;> rfl
    all_goals repeat' split
    all_goals rfl
  case h_3 h => exact absurd h hd
  all_goals rfl

/-- The OAM data register reaches the byte at the cursor. -/
theorem State.cpuWrite_oamData_read {s : State} {a : Addr} (ha : regionOf a = .ppu .oamData) (hw : s.ppu.oam.wf = true) {k : Nat}
    (hk : k ≠ s.ppu.oamAddr.toNat) (v : Byte) : (s.cpuWrite a v).ppu.oam.read k = s.ppu.oam.read k := by
  unfold State.cpuWrite
  rw [ha]
  simp only [State.regWrite, State.regAction]
  split
  · rfl
  · exact Memory.read_write_ne _ v hk hw

/-- Palette, nametables and graphics memory are written by the data register (61 R371). -/
theorem State.cpuWrite_sameVideo (s : State) (a : Addr) (v : Byte) (h : regionOf a ≠ .ppu .data) : s.SameVideo (s.cpuWrite a v) := by
  unfold State.cpuWrite
  split
  case h_2 r hr =>
    cases r <;> simp only [State.regWrite, State.regAction]
    case data => exact absurd hr h
    all_goals repeat' split
    all_goals exact ⟨rfl, rfl, rfl⟩
  case h_3 =>
    refine State.oamDmaLast_induct (P := fun t => s.SameVideo t) (fun t i ht => ?_) 256 s ⟨rfl, rfl, rfl⟩
    obtain ⟨vb, w, va, hp⟩ := t.cpuRead_ppu (word v i)
    refine ⟨?_, ?_, (congrArg Cart.chr (t.cpuRead_cart _)).trans ht.chr⟩
    · exact (congrArg Ppu.palette hp).trans ht.palette
    · exact (congrArg Ppu.nametable hp).trans ht.nametable
  case h_8 => exact ⟨rfl, rfl, (s.cart.cpuWrite_writes a v).chr⟩
  all_goals exact ⟨rfl, rfl, rfl⟩

theorem ppuCell_ppuWrite (c : Cart) (m : Nat) (v : Byte) (a : Addr) : ppuCell (c.ppuWrite m v) a = ppuCell c a := by
  unfold Cart.ppuWrite
  split <;> rfl

theorem Cart.chrOffset_ppuWrite (c : Cart) (m : Nat) (v : Byte) (a : Nat) : (c.ppuWrite m v).chrOffset a = c.chrOffset a := by
  unfold Cart.ppuWrite
  split <;> rfl

/-- A picture-unit write of graphics memory is seen at the offset it reaches only. -/
theorem Cart.ppuRead_ppuWrite_ne {c : Cart} {a b : Nat} (hw : c.chr.wf = true) (h : c.chrOffset b ≠ c.chrOffset a) (v : Byte) :
    (c.ppuWrite a v).ppuRead b = c.ppuRead b := by
  unfold Cart.ppuRead
  rw [Cart.chrOffset_ppuWrite, Cart.ppuWrite_chr]
  split
  · exact Memory.read_write_ne _ v h hw
  · rfl

/-- What a read of the picture unit's bus sees. -/
theorem State.ppuRead_congr {s t : State} (hc : t.cart = s.cart) (hn : t.ppu.nametable = s.ppu.nametable) (hp : t.ppu.palette = s.ppu.palette)
    (a : Addr) : t.ppuRead a = s.ppuRead a := by
  unfold State.ppuRead
  rw [hc, hn, hp]

/-- A write on the picture unit's bus is seen only where it reaches the same byte. -/
theorem State.ppuRead_ppuWrite_ne {s : State} {a b : Addr} (hp : s.ppu.palette.wf = true) (hn : s.ppu.nametable.wf = true)
    (hc : s.cart.chr.wf = true) (h : samePpuByte s.cart b a = false) (v : Byte) : (s.ppuWrite a v).ppuRead b = s.ppuRead b := by
  unfold samePpuByte at h
  unfold State.ppuWrite
  cases ha : ppuCell s.cart a with
  | pattern m =>
    unfold State.ppuRead
    simp only [State.setCart_cart, ppuCell_ppuWrite]
    cases hb : ppuCell s.cart b with
    | pattern k =>
      rw [ha, hb] at h
      exact Cart.ppuRead_ppuWrite_ne hc (by simpa using h) v
    | nametable k => rfl
    | palette k => rfl
  | nametable m =>
    unfold State.ppuRead
    simp only [State.setPpu_cart]
    cases hb : ppuCell s.cart b with
    | pattern k => rfl
    | nametable k =>
      rw [ha, hb] at h
      exact Memory.read_write_ne _ v (by simpa using h) hn
    | palette k => rfl
  | palette m =>
    unfold State.ppuRead
    simp only [State.setPpu_cart]
    cases hb : ppuCell s.cart b with
    | pattern k => rfl
    | nametable k => rfl
    | palette k =>
      rw [ha, hb] at h
      exact Memory.read_write_ne _ v (by simpa using h) hp

/-- A write of the data register is one on the picture unit's bus, at the address it then advances. -/
theorem State.cpuWrite_data {s : State} {a : Addr} (ha : regionOf a = .ppu .data) (v : Byte) :
    (s.cpuWrite a v).ppu.vramAddr = s.ppu.vramAddr + s.ppu.increment
      ∧ ∀ b, (s.cpuWrite a v).ppuRead b = (s.ppuWrite s.ppu.vramAddr v).ppuRead b := by
  unfold State.cpuWrite
  rw [ha]
  simp only [State.regWrite, State.regAction]
  unfold State.ppuWrite
  simp only [State.setPpu_cart, State.setPpu_ppu]
  cases ppuCell s.cart s.ppu.vramAddr <;> exact ⟨rfl, fun b => State.ppuRead_congr rfl rfl rfl b⟩

/-! What reads leave alone in the picture unit, field by field. -/

section
variable {s u : State} (h : s.ReadFrame u)
include h

theorem State.ReadFrame.oam : u.ppu.oam = s.ppu.oam := by rw [h.ppu]
theorem State.ReadFrame.oamAddr : u.ppu.oamAddr = s.ppu.oamAddr := by rw [h.ppu]
theorem State.ReadFrame.palette : u.ppu.palette = s.ppu.palette := by rw [h.ppu]
theorem State.ReadFrame.nametable : u.ppu.nametable = s.ppu.nametable := by rw [h.ppu]
theorem State.ReadFrame.increment : u.ppu.increment = s.ppu.increment := by
  rw [h.ppu]
  rfl

end

/-! What an instruction that stores at `a` leaves alone: the frame of its one write, seen from the state before its reads. -/

section
variable {s t : State} {a : Addr} (h : s.WritesAt t a)
include h

theorem State.WritesAt.sp : t.sp = s.sp := by
  obtain ⟨u, v, length, cost, -, hsp, rfl⟩ := h
  exact (u.cpuWrite_sp a v).trans hsp

theorem State.WritesAt.ram_read (hw : s.ram.wf = true) {k : Nat} (hk : regionOf a ≠ .ram k) : t.ram.read k = s.ram.read k := by
  obtain ⟨u, v, length, cost, hu, -, rfl⟩ := h
  rw [← hu.ram] at hw ⊢
  exact State.cpuWrite_ram_read hw hk v

theorem State.WritesAt.cart_read (hw : s.cart.prgRam.wf = true) (ha : a.toNat < 0x8000) {b : Addr} (hb : regionOf a = .cartridge → b ≠ a) :
    t.cart.cpuRead b = s.cart.cpuRead b := by
  obtain ⟨u, v, length, cost, hu, -, rfl⟩ := h
  rw [← hu.cart] at hw ⊢
  exact State.cpuWrite_cart_read hw ha hb v

theorem State.WritesAt.peek (hr : s.ram.wf = true) (hw : s.cart.prgRam.wf = true) (ha : a.toNat < 0x8000) {b : Addr} (hq : quiet b = true)
    (hb : regionOf b ≠ regionOf a ∨ (regionOf a = .cartridge ∧ b ≠ a)) : t.peek b = s.peek b := by
  refine State.peek_quiet_congr hq (fun k hk => h.ram_read hr fun e => ?_) fun hc => h.cart_read hw ha fun e => ?_
  · rw [hk, e] at hb
    simp at hb
  · exact hb.elim (fun hne => absurd (hc.trans e.symm) hne) And.right

theorem State.WritesAt.rom (ha : 0x8000 ≤ a.toNat) :
    t.ram = s.ram ∧ t.cart.image = s.cart.image ∧ t.cart.prgRam = s.cart.prgRam ∧ t.cart.chr = s.cart.chr := by
  obtain ⟨u, v, length, cost, hu, -, rfl⟩ := h
  have w := u.cart.cpuWrite_writes a v
  rw [← hu.ram, ← hu.cart, State.cpuWrite_cartridge (by omega) v]
  exact ⟨rfl, w.image, w.rom ha, w.chr⟩

theorem State.WritesAt.oam (hd : regionOf a ≠ .dma) (ho : regionOf a ≠ .ppu .oamData) : t.ppu.oam = s.ppu.oam := by
  obtain ⟨u, v, length, cost, hu, -, rfl⟩ := h
  exact (u.cpuWrite_oam a v hd ho).trans hu.oam

theorem State.WritesAt.oam_read (hw : s.ppu.oam.wf = true) (ho : regionOf a = .ppu .oamData) {k : Nat} (hk : k ≠ s.ppu.oamAddr.toNat) :
    t.ppu.oam.read k = s.ppu.oam.read k := by
  obtain ⟨u, v, length, cost, hu, -, rfl⟩ := h
  rw [← hu.oamAddr] at hk
  rw [← hu.oam] at hw ⊢
  exact State.cpuWrite_oamData_read ho hw hk v

theorem State.WritesAt.sameVideo (hv : regionOf a ≠ .ppu .data) : s.SameVideo t := by
  obtain ⟨u, v, length, cost, hu, -, rfl⟩ := h
  have w := u.cpuWrite_sameVideo a v hv
  exact ⟨w.palette.trans hu.palette, w.nametable.trans hu.nametable, w.chr.trans (congrArg Cart.chr hu.cart)⟩

/-- The byte the data register stores is the one at the address it has advanced from. -/
theorem State.WritesAt.ppuRead (hp : s.ppu.palette.wf = true) (hn : s.ppu.nametable.wf = true) (hc : s.cart.chr.wf = true)
    (hv : regionOf a = .ppu .data) {b : Addr} (hb : samePpuByte s.cart b (t.ppu.vramAddr - s.ppu.increment) = false) :
    t.ppuRead b = s.ppuRead b := by
  obtain ⟨u, v, length, cost, hu, -, rfl⟩ := h
  obtain ⟨haddr, hread⟩ := State.cpuWrite_data hv v
  have hwritten : ((u.cpuWrite a v).finish length cost).ppu.vramAddr - s.ppu.increment = u.ppu.vramAddr := by
    rw [← hu.increment]
    exact (congrArg (· - u.ppu.increment) haddr).trans (BitVec.add_sub_cancel _ _)
  rw [hwritten, ← hu.cart] at hb
  rw [← hu.palette] at hp
  rw [← hu.nametable] at hn
  rw [← hu.cart] at hc
  calc (u.cpuWrite a v).ppuRead b
      _ = (u.ppuWrite u.ppu.vramAddr v).ppuRead b := hread b
      _ = u.ppuRead b := State.ppuRead_ppuWrite_ne hp hn hc hb v
      _ = s.ppuRead b := State.ppuRead_congr hu.cart hu.nametable hu.palette b

end

/-- The register of index `n` at any of its mirrors (R63). -/
theorem regionOf_register {a : Addr} {r : PpuReg} {n : Nat} (hr : ppuRegOf a = r ↔ a.toNat % 8 = n) :
    regionOf a = .ppu r ↔ 0x2000 ≤ a.toNat ∧ a.toNat < 0x4000 ∧ a.toNat % 8 = n := by
  rw [← hr]
  constructor
  · exact regionOf_eq_ppu
  · rintro ⟨h1, h2, h3⟩
    rw [regionOf_window h1 h2, h3]

/-- Settles O32: the store is one write after reads, and a write changes what its region owns. -/
theorem storingFrame : Obligations.StoringFrame := by
  intro i m s t hram hprg hoam hpal hname hchr hm he ea toRegister written
  have h : s.WritesAt t ea := exec_writesAt hm he
  have oamData : regionOf ea = .ppu .oamData ↔ toRegister 4 := regionOf_register (ppuRegOf_memory ea).1
  have data : regionOf ea = .ppu .data ↔ toRegister 7 := regionOf_register (ppuRegOf_memory ea).2
  refine ⟨h.sp, fun k hk => h.ram_read hram hk, fun ha b hq hb => h.peek hram hprg ha hq hb, h.rom, fun hd ho => ?_, fun ho k hk => ?_,
    fun hv => ?_, fun hv b hb => ?_⟩
  · exact h.oam (fun e => hd (regionOf_eq_dma e)) (fun e => ho (oamData.mp e))
  · exact h.oam_read hoam (oamData.mpr ho) hk
  · obtain ⟨palette, nametable, chr⟩ := h.sameVideo fun e => hv (data.mp e)
    exact ⟨palette, nametable, chr⟩
  · exact h.ppuRead hpal hname hchr (data.mpr hv) hb

end Sys2Proof.Machine
end

section
/-! PROOFS. The cartridge and its mappers (21_cartridge_mappers): the loader, cartridge RAM, and each variant's registers, banks and mirroring. -/

namespace Sys2Proof.Machine

/-! ## The loader (R100 to R102) -/

theorem headerMapperId_toNat (h6 h7 : Byte) : (headerMapperId h6 h7).toNat = h7.toNat / 16 * 16 + h6.toNat / 16 := by
  have high : (h7 &&& 0xF0).toNat = (h7.toNat / 16) <<< 4 := by
    revert h7
    decide
  have low : (h6 >>> 4).toNat = h6.toNat / 16 := by
    rw [BitVec.toNat_ushiftRight, Nat.shiftRight_eq_div_pow]
  have nibbles : (headerMapperId h6 h7).toNat = (h7 &&& 0xF0).toNat ||| (h6 >>> 4).toNat := BitVec.toNat_or _ _
  have := h6.isLt
  rw [nibbles, high, low, ← Nat.shiftLeft_add_eq_or_of_lt (by omega), Nat.shiftLeft_eq]

theorem headerSize_eq (h6 : Byte) : headerSize h6 = 16 + (if h6.toNat / 4 % 2 = 1 then 512 else 0) := by
  revert h6
  decide

theorem headerMirroring_eq (h6 : Byte) :
    headerMirroring h6 = if h6.toNat / 8 % 2 = 1 then .fourScreen else if h6.toNat % 2 = 1 then .vertical else .horizontal := by
  revert h6
  decide

/-- The identifiers that name a variant. -/
theorem exists_initialRegs (id : Byte) : (∃ regs, initialRegs id = some regs) ↔ id.toNat ∈ [0, 1, 3, 4] := by
  rw [← Option.isSome_iff_exists]
  revert id
  decide

/-- The immutable part of the cartridge that an image's header announces. -/
def announcedImage (bytes : List Byte) : Image where
  prgBanks := (bytes.getD 4 0).toNat
  chrBanks := (bytes.getD 5 0).toNat
  mapperId := headerMapperId (bytes.getD 6 0) (bytes.getD 7 0)
  mirroring := headerMirroring (bytes.getD 6 0)
  prg := Memory.ofBytes ((bytes.drop (headerSize (bytes.getD 6 0))).take (16384 * (bytes.getD 4 0).toNat))

/-- Its graphics ROM, which follows the program ROM. -/
def announcedChr (bytes : List Byte) : Memory :=
  Memory.ofBytes (((bytes.drop (headerSize (bytes.getD 6 0))).drop (16384 * (bytes.getD 4 0).toNat)).take (8192 * (bytes.getD 5 0).toNat))

/-- When the loader accepts an image, and what it makes of it. -/
theorem loadImage_eq_ok_iff {bytes : List Byte} {c : Cart} :
    loadImage bytes = .ok c ↔
      bytes.take 4 = [0x4E, 0x45, 0x53, 0x1A]
        ∧ headerSize (bytes.getD 6 0) + 16384 * (bytes.getD 4 0).toNat + 8192 * (bytes.getD 5 0).toNat ≤ bytes.length ∧ bytes.getD 4 0 ≠ 0
        ∧ ∃ regs, initialRegs (announcedImage bytes).mapperId = some regs ∧ c = (announcedImage bytes).insert regs (announcedChr bytes) := by
  unfold loadImage
  dsimp only
  split
  · next magic => exact ⟨nofun, fun h => absurd h.1 magic⟩
  rename_i magic
  split
  · next short => exact ⟨nofun, fun h => absurd h.2.1 (Nat.not_le.mpr short)⟩
  rename_i long
  split
  · next empty => exact ⟨nofun, fun h => absurd empty h.2.2.1⟩
  rename_i banks
  split
  · next unknown =>
    refine ⟨nofun, ?_⟩
    rintro ⟨-, -, -, regs, known, -⟩
    exact absurd (unknown.symm.trans known) nofun
  · next regs known =>
    constructor
    · intro h
      exact ⟨not_not.mp magic, Nat.not_lt.mp long, banks, regs, known, (Except.ok.inj h).symm⟩
    · rintro ⟨-, -, -, regs', known', rfl⟩
      cases known.symm.trans known'
      rfl

/-- An array made of a slice of an image has the image's bytes. -/
theorem Memory.read_ofBytes_slice (bytes : List Byte) (start : Nat) {size k : Nat} (h : k < size) :
    Memory.read (Memory.ofBytes ((bytes.drop start).take size)) k = bytes.getD (start + k) 0 := by
  rw [Memory.read_ofBytes, List.getD_eq_getElem?_getD, List.getElem?_take_of_lt h, List.getElem?_drop, ← List.getD_eq_getElem?_getD]
  rfl

/-- Settles O51, by the characterisation of the loader's success and the fields of its header. -/
theorem imageLoading : Obligations.ImageLoading := by
  intro bytes h start id
  have hstart : headerSize (bytes.getD 6 0) = start := headerSize_eq _
  have hid : (announcedImage bytes).mapperId.toNat = id := headerMapperId_toNat _ _
  have hbanks : bytes.getD 4 0 ≠ 0 ↔ 0 < h 4 := by
    rw [Nat.pos_iff_ne_zero, ne_eq, ne_eq, ← BitVec.toNat_inj]
    rfl
  simp only [loadImage_eq_ok_iff, hstart, hbanks]
  constructor
  · rw [← hid, ← exists_initialRegs]
    constructor
    · rintro ⟨c, magic, length, banks, regs, known, -⟩
      exact ⟨magic, length, banks, regs, known⟩
    · rintro ⟨magic, length, banks, regs, known⟩
      exact ⟨_, magic, length, banks, regs, known, rfl⟩
  · rintro c ⟨-, -, -, regs, known, rfl⟩
    refine ⟨rfl, rfl, rfl, hid, (initialRegs_good known).1, headerMirroring_eq _, fun k hk => ?_, fun k hk => ?_, fun hchr => ?_, rfl⟩
    · rw [← hstart]
      exact Memory.read_ofBytes_slice bytes _ hk
    · show (announcedChr bytes).read k = _
      rw [announcedChr, List.drop_drop, hstart]
      exact Memory.read_ofBytes_slice bytes _ hk
    · show announcedChr bytes = []
      rw [announcedChr, show (bytes.getD 5 0).toNat = 0 from hchr]
      rfl

/-! ## The windows of a cartridge (R103, R110, R111) -/

theorem Cart.cpuRead_rom (c : Cart) {a : Addr} (h : 0x8000 ≤ a.toNat) : c.cpuRead a = c.image.prg.read (c.prgOffset a) := if_pos h

theorem State.cpuRead_rom (s : State) {a : Addr} (h : 0x8000 ≤ a.toNat) :
    s.cpuRead a = (s.cart.image.prg.read (s.cart.prgOffset a), s) := by
  rw [State.cpuRead_cartridge (regionOf_vector (by omega)), Cart.cpuRead_rom _ h]

theorem Cart.hasPrgRam_iff (c : Cart) : c.hasPrgRam = true ↔ (∃ r, c.regs = .serial r) ∨ ∃ r, c.regs = .dual r := by
  unfold Cart.hasPrgRam
  cases c.regs <;> simp

section
variable {c : Cart} {a : Addr} (low : 0x6000 ≤ a.toNat) (high : a.toNat < 0x8000)
include low high

theorem Cart.cpuRead_window : c.cpuRead a = if c.hasPrgRam then c.prgRam.read (a.toNat - 0x6000) else openBus := by
  simp only [Cart.cpuRead, if_neg (Nat.not_le.mpr high), low, decide_true, Bool.true_and]

theorem Cart.cpuWrite_window (v : Byte) :
    c.cpuWrite a v = if c.hasPrgRam then { c with prgRam := c.prgRam.write (a.toNat - 0x6000) v } else c := by
  simp only [Cart.cpuWrite, if_neg (Nat.not_le.mpr high), low, decide_true, Bool.true_and]

end

/-- Settles O53, by the two equations of the window and the law of reads after writes. -/
theorem cartridgeRam : Obligations.CartridgeRam := by
  intro s a b v ha ha' hb hb' hw hasRam
  have write := State.cpuWrite_cartridge (s := s) (a := a) (by omega) v
  rw [Cart.cpuWrite_window ha ha'] at write
  have read (t : State) {a : Addr} (h : 0x6000 ≤ a.toNat) := State.cpuRead_cartridge (s := t) (regionOf_vector (a := a) (by omega))
  have iff : s.cart.hasPrgRam = true ↔ hasRam := s.cart.hasPrgRam_iff
  constructor
  · intro h
    rw [← iff] at h
    rw [if_pos h] at write
    have sameAddr : b.toNat - 0x6000 = a.toNat - 0x6000 ↔ a = b := by
      rw [← BitVec.toNat_inj]
      omega
    have peek : s.peek b = s.cart.prgRam.read (b.toNat - 0x6000) := by
      rw [State.peek_cartridge _ (by omega), Cart.cpuRead_window hb hb', if_pos h]
    refine ⟨?_, by rw [write]; rfl⟩
    have has (m : Memory) : ({ s.cart with prgRam := m } : Cart).hasPrgRam = true := h
    rw [read _ hb, write, peek, State.setCart_cart, Cart.cpuRead_window hb hb', if_pos (has _), Memory.read_write _ _ _ _ hw]
    simp only [sameAddr]
  · intro h
    rw [← iff] at h
    rw [if_neg h] at write
    refine ⟨write, ?_⟩
    rw [read s ha, Cart.cpuRead_window ha ha', if_neg h]
    rfl

/-! ## The fixed-bank and the bank-select variant (R108 to R113) -/

/-- Neither variant switches program ROM. -/
theorem Cart.prgOffset_fixed {c : Cart} (h : c.regs = .fixedBank ∨ ∃ k, c.regs = .bankSelect k) (a : Addr) :
    c.prgOffset a = (a.toNat - 0x8000) % c.image.prgSize := by
  unfold Cart.prgOffset
  rcases h with h | ⟨k, h⟩ <;> rw [h]

theorem Cart.ppuRead_fixedBank {c : Cart} (h : c.regs = .fixedBank) (b : Nat) : c.ppuRead b = c.chr.read (b % c.image.chrSize) := by
  rw [Cart.ppuRead, Cart.chrOffset, h]

theorem Cart.ppuRead_bankSelect {c : Cart} {k : Byte} (h : c.regs = .bankSelect k) (b : Nat) :
    c.ppuRead b = bankByte c.chr c.image.chrSize 8192 k.toNat b := by
  rw [Cart.ppuRead, Cart.chrOffset, h]
  rfl

theorem Cart.cpuWrite_fixedBank {c : Cart} (h : c.regs = .fixedBank) {a : Addr} (ha : 0x8000 ≤ a.toNat) (v : Byte) : c.cpuWrite a v = c := by
  rw [Cart.cpuWrite, if_pos ha, h]

theorem Cart.cpuWrite_bankSelect {c : Cart} {k : Byte} (h : c.regs = .bankSelect k) {a : Addr} (ha : 0x8000 ≤ a.toNat) (v : Byte) :
    c.cpuWrite a v = { c with regs := .bankSelect v } := by
  rw [Cart.cpuWrite, if_pos ha, h]

/-- Settles O52, by the equations of the two variants; in a one-bank image the two halves have the same offsets. -/
theorem fixedProgramRom : Obligations.FixedProgramRom := by
  intro s a b v ha hb hregs
  have read {a : Addr} (h : 0x8000 ≤ a.toNat) : s.cpuRead a = (s.cart.image.prg.read ((a.toNat - 0x8000) % s.cart.image.prgSize), s) := by
    rw [s.cpuRead_rom h, Cart.prgOffset_fixed hregs]
  have write := State.cpuWrite_cartridge (s := s) (a := a) (by omega) v
  refine ⟨read ha, fun one upper => ?_, fun fixed => ⟨?_, Cart.ppuRead_fixedBank fixed b⟩, fun k select => ⟨?_, Cart.ppuRead_bankSelect select b⟩⟩
  · have lower : (a - 0x4000).toNat = a.toNat - 0x4000 := BitVec.toNat_sub_of_le (BitVec.le_def.mpr (by simp; omega))
    have size : s.cart.image.prgSize = 16384 := by rw [Image.prgSize, one]
    have same : (a.toNat - 0x8000) % 16384 = (a.toNat - 0x4000 - 0x8000) % 16384 := by omega
    rw [read ha, read (by omega), lower, size, same]
  · rw [write, Cart.cpuWrite_fixedBank fixed ha]
    rfl
  · rw [write, Cart.cpuWrite_bankSelect select ha]
    rfl

/-! ## The serial variant (R114 to R119) -/

/-- One more bit in the serial variant's shift register, at its top (R114). -/
def SerialRegs.shiftIn (r : SerialRegs) (v : Byte) : SerialRegs :=
  { r with shift := (r.shift >>> 1) ||| ((v &&& 1).setWidth 5 <<< 4), shiftCount := r.shiftCount + 1 }

@[simp] theorem SerialRegs.shiftIn_shiftCount (r : SerialRegs) (v : Byte) : (r.shiftIn v).shiftCount = r.shiftCount + 1 := rfl

/-- The serial variant's registers with an empty shift register. -/
def SerialRegs.emptied (r : SerialRegs) : SerialRegs := { r with shift := 0, shiftCount := 0 }

theorem SerialRegs.shiftIn_shift_toNat (r : SerialRegs) (v : Byte) : (r.shiftIn v).shift.toNat = r.shift.toNat / 2 + 16 * bit v 0 := by
  have low : (v &&& 1).setWidth 5 = BitVec.setWidth 5 (BitVec.ofBool (v.getLsbD 0)) := by
    revert v
    decide
  simp only [SerialRegs.shiftIn, low, bit]
  generalize r.shift = shift
  generalize v.getLsbD 0 = top
  revert shift top
  decide

/-- Five bits fill the shift register, whatever it held: the first is the lowest. -/
theorem SerialRegs.shiftIn_five (r : SerialRegs) (v0 v1 v2 v3 v4 : Byte) :
    (((((r.shiftIn v0).shiftIn v1).shiftIn v2).shiftIn v3).shiftIn v4).shift
      = BitVec.ofNat 5 (bit v0 0 + 2 * bit v1 0 + 4 * bit v2 0 + 8 * bit v3 0 + 16 * bit v4 0) := by
  have held := r.shift.isLt
  have bits (v : Byte) : bit v 0 ≤ 1 := Bool.toNat_le _
  have := bits v0
  have := bits v1
  have := bits v2
  have := bits v3
  have := bits v4
  refine BitVec.eq_of_toNat_eq ?_
  simp only [SerialRegs.shiftIn_shift_toNat, BitVec.toNat_ofNat]
  omega

section
variable {c : Cart} {r : SerialRegs} (hr : c.regs = .serial r) {a : Addr} (ha : 0x8000 ≤ a.toNat) {v : Byte}
include hr ha

theorem Cart.cpuWrite_serial : c.cpuWrite a v = c.serialWrite r a v := by
  rw [Cart.cpuWrite, if_pos ha, hr]

theorem Cart.cpuWrite_serial_reset (hv : v.getLsbD 7 = true) : c.cpuWrite a v = { c with regs := .serial r.emptied } := by
  rw [Cart.cpuWrite_serial hr ha, Cart.serialWrite, if_pos hv]
  rfl

/-- A write that does not fill the shift register. -/
theorem Cart.cpuWrite_serial_shift (hv : v.getLsbD 7 = false) (hn : r.shiftCount < 4) :
    c.cpuWrite a v = { c with regs := .serial (r.shiftIn v) } := by
  have notFull : r.shiftCount + 1 ≠ 5 := by omega
  rw [Cart.cpuWrite_serial hr ha, Cart.serialWrite, hv]
  exact if_neg notFull

/-- The fifth write. -/
theorem Cart.cpuWrite_serial_commit (hv : v.getLsbD 7 = false) (hn : r.shiftCount = 4) :
    c.cpuWrite a v = c.commit r.emptied (a.toNat / 0x2000 % 4) (r.shiftIn v).shift := by
  have register : (a.extractLsb' 13 2).toNat = a.toNat / 0x2000 % 4 := by
    rw [BitVec.extractLsb'_toNat, Nat.shiftRight_eq_div_pow]
  rw [Cart.cpuWrite_serial hr ha, Cart.serialWrite, hv, ← register]
  exact if_pos (congrArg (· + 1) hn)

end

/-! What a commit does, by its register. -/

section
variable (c : Cart) (r : SerialRegs) (sel : Nat) (value : BitVec 5)

theorem Cart.commit_regs (h : sel < 4) :
    (c.commit r sel value).regs = .serial { r with
      control := if sel = 0 then value else r.control, chrBank0 := if sel = 1 then value else r.chrBank0
      chrBank1 := if sel = 2 then value else r.chrBank1, prgBank := if sel = 3 then value else r.prgBank } := by
  match sel with
  | 0 => exact Cart.selectMirroring_regs _ _
  | 1 => rfl
  | 2 => rfl
  | 3 => rfl

theorem Cart.commit_mirroring :
    (c.commit r sel value).mirroring = if sel = 0 ∧ c.image.mirroring ≠ .fourScreen then serialMirroring value else c.mirroring := by
  match sel with
  | 0 =>
    refine (Cart.selectMirroring_mirroring _ _).trans ?_
    by_cases h : c.image.mirroring = .fourScreen <;> simp [h]
  | 1 => rfl
  | 2 => rfl
  | n + 3 => simp [Cart.commit]

theorem Cart.commit_frame :
    (c.commit r sel value).image = c.image ∧ (c.commit r sel value).chr = c.chr ∧ (c.commit r sel value).prgRam = c.prgRam := by
  unfold Cart.commit
  split
  · simp
  all_goals exact ⟨rfl, rfl, rfl⟩

end

theorem serialMirroring_eq (control : BitVec 5) :
    serialMirroring control = [Mirroring.singleA, .singleB, .vertical, .horizontal].getD (control.toNat % 4) .singleA := by
  revert control
  decide

/-- Settles O54: four writes shift, the fifth commits. -/
theorem serialLoad : Obligations.SerialLoad := by
  intro c r a0 a1 a2 a3 a4 v0 v1 v2 v3 v4 hr ha
  simp only [List.forall_mem_cons, List.not_mem_nil, false_implies, implies_true, and_true] at ha
  obtain ⟨ha0, ha1, ha2, ha3, ha4⟩ := ha
  refine ⟨Cart.cpuWrite_serial_reset hr ha0, ?_⟩
  intro hv hn d value sel
  simp only [List.forall_mem_cons, List.not_mem_nil, false_implies, implies_true, and_true] at hv
  obtain ⟨hv0, hv1, hv2, hv3, hv4⟩ := hv
  have hd : d = { c with regs := .serial ((((r.shiftIn v0).shiftIn v1).shiftIn v2).shiftIn v3) }.commit r.emptied sel value := by
    show Cart.cpuWrite _ a4 v4 = _
    rw [Cart.cpuWrite_serial_shift hr ha0 hv0 (by simp [hn]), Cart.cpuWrite_serial_shift rfl ha1 hv1 (by simp [hn]),
      Cart.cpuWrite_serial_shift rfl ha2 hv2 (by simp [hn]), Cart.cpuWrite_serial_shift rfl ha3 hv3 (by simp [hn]),
      Cart.cpuWrite_serial_commit rfl ha4 hv4 (by simp [hn]), SerialRegs.shiftIn_five]
    rfl
  rw [hd, Cart.commit_regs _ _ _ _ (Nat.mod_lt _ (by decide)), Cart.commit_mirroring, serialMirroring_eq]
  exact ⟨rfl, rfl, Cart.commit_frame _ _ _ _⟩

/-! ## The banks of the serial and the dual variant (R117, R118, R122, R123) -/

theorem bankByte_eq (m : Memory) (len size index a : Nat) : bankByte m len size index a = m.read (bankOffset len size index a) := rfl

theorem SerialRegs.programMode_eq (r : SerialRegs) : r.programMode = r.control.toNat / 4 % 4 := by
  rw [SerialRegs.programMode, BitVec.extractLsb'_toNat, Nat.shiftRight_eq_div_pow]

theorem SerialRegs.graphicsMode_eq (r : SerialRegs) : r.graphicsMode = decide (r.control.toNat / 16 = 1) := by
  unfold SerialRegs.graphicsMode
  generalize r.control = control
  revert control
  decide

theorem Cart.cpuRead_serial {c : Cart} {r : SerialRegs} (hr : c.regs = .serial r) {a : Addr} (ha : 0x8000 ≤ a.toNat) :
    c.cpuRead a = c.image.prg.read (serialPrgOffset r c.image.prgSize a.toNat) := by
  rw [Cart.cpuRead_rom c ha, Cart.prgOffset, hr]

theorem Cart.ppuRead_serial {c : Cart} {r : SerialRegs} (hr : c.regs = .serial r) (b : Nat) :
    c.ppuRead b = c.chr.read (serialChrOffset r c.image.chrSize b) := by
  rw [Cart.ppuRead, Cart.chrOffset, hr]

theorem Cart.cpuRead_dual {c : Cart} {r : DualRegs} (hr : c.regs = .dual r) {a : Addr} (ha : 0x8000 ≤ a.toNat) :
    c.cpuRead a = bankByte c.image.prg c.image.prgSize 8192 (dualPrgBank r c.image.prgSize a.toNat) a.toNat := by
  rw [Cart.cpuRead_rom c ha, Cart.prgOffset, hr]
  rfl

theorem Cart.ppuRead_dual {c : Cart} {r : DualRegs} (hr : c.regs = .dual r) (b : Nat) :
    c.ppuRead b = bankByte c.chr c.image.chrSize 1024 (dualChrBank r b) b := by
  rw [Cart.ppuRead, Cart.chrOffset, hr]
  rfl

section
variable (r : SerialRegs) (len a : Nat)

theorem serialPrgOffset_whole (h : r.programMode < 2) : serialPrgOffset r len a = bankOffset len 32768 (r.prgBank.toNat % 16 / 2) a := by
  rw [← BitVec.toNat_setWidth 4]
  unfold serialPrgOffset
  split
  · omega
  · omega
  · rfl

theorem serialPrgOffset_fixFirst (h : r.programMode = 2) :
    serialPrgOffset r len a = bankOffset len 16384 (if a < 0xC000 then 0 else r.prgBank.toNat % 16) a := by
  rw [serialPrgOffset, h, apply_ite (bankOffset len 16384 · a), BitVec.toNat_setWidth]
  rfl

theorem serialPrgOffset_fixLast (h : r.programMode = 3) :
    serialPrgOffset r len a = bankOffset len 16384 (if a < 0xC000 then r.prgBank.toNat % 16 else len / 16384 - 1) a := by
  rw [serialPrgOffset, h, apply_ite (bankOffset len 16384 · a), BitVec.toNat_setWidth]
  rfl

theorem serialChrOffset_eq :
    serialChrOffset r len a =
      if r.control.toNat / 16 = 1 then bankOffset len 4096 (if a < 0x1000 then r.chrBank0.toNat else r.chrBank1.toNat) a
      else bankOffset len 8192 (r.chrBank0.toNat / 2) a := by
  rw [serialChrOffset, SerialRegs.graphicsMode_eq, apply_ite (bankOffset len 4096 · a)]
  simp only [decide_eq_true_eq]

end

/-- The 8 KB bank of each of the four windows from 0x8000 on. -/
theorem dualPrgBank_eq (r : DualRegs) (len : Nat) {a : Nat} (h : 0x8000 ≤ a) (h' : a < 0x10000) :
    dualPrgBank r len a =
      if a / 0x2000 % 4 = 3 then len / 8192 - 1 else if a / 0x2000 % 4 = 1 then r.bankReg[7].toNat
      else if (a / 0x2000 % 4 = 0 ∧ ¬r.bankSelect.getLsbD 6 = true) ∨ (a / 0x2000 % 4 = 2 ∧ r.bankSelect.getLsbD 6 = true) then r.bankReg[6].toNat
      else len / 8192 - 2 := by
  unfold dualPrgBank
  dsimp only
  generalize r.bankSelect.getLsbD 6 = swapped
  split
  · have : a / 0x2000 % 4 = 0 := by omega
    cases swapped <;> simp [this]
  split
  · have : a / 0x2000 % 4 = 1 := by omega
    simp [this]
  split
  · have : a / 0x2000 % 4 = 2 := by omega
    cases swapped <;> simp [this]
  · have : a / 0x2000 % 4 = 3 := by omega
    simp [this]

/-- Inverting bit 12 of a pattern address swaps the two pattern tables. -/
theorem xor_patternTable {b : Nat} (h : b < 0x2000) : b ^^^ 0x1000 = (b + 0x1000) % 0x2000 := by
  have low : (b ^^^ 0x1000) % 2 ^ 12 = b % 2 ^ 12 := by
    rw [Nat.xor_mod_two_pow]
    exact Nat.xor_zero _
  have high : (b ^^^ 0x1000) / 2 ^ 12 = b / 2 ^ 12 ^^^ 1 := Nat.xor_div_two_pow
  have table : b / 2 ^ 12 = 0 ∨ b / 2 ^ 12 = 1 := by omega
  rcases table with e | e
  · rw [e, Nat.zero_xor] at high
    omega
  · rw [e, Nat.xor_self] at high
    omega

theorem and_FE_toNat (v : Byte) : (v &&& 0xFE).toNat = v.toNat / 2 * 2 := by
  revert v
  decide

/-- Settles O55, by the equations of the banks. -/
theorem bankMapping : Obligations.BankMapping := by
  intro c a b ha hb len
  constructor
  · intro r hr p mode
    have hmode : r.programMode = mode := r.programMode_eq
    rw [Cart.cpuRead_serial hr ha, Cart.ppuRead_serial hr, serialChrOffset_eq]
    simp only [bankByte_eq, ← hmode]
    refine ⟨fun h => ?_, fun h => ?_, fun h => ?_, fun h => ?_, fun h => ?_⟩
    · rw [serialPrgOffset_whole r _ _ h]
    · rw [serialPrgOffset_fixFirst r _ _ h]
    · rw [serialPrgOffset_fixLast r _ _ h]
    · rw [h, if_neg (by decide)]
    · rw [if_pos h]
  · intro r hr window swapped index b' chrIndex
    have prg : dualPrgBank r len a.toNat = index := dualPrgBank_eq r len ha a.isLt
    have chr : dualChrBank r b = chrIndex := by
      unfold dualChrBank
      simp only [xor_patternTable hb, and_FE_toNat]
      rfl
    rw [Cart.cpuRead_dual hr ha, Cart.ppuRead_dual hr, ← prg, ← chr]
    exact ⟨rfl, rfl⟩

/-! ## The registers of the dual variant (R120, R121) -/

/-- The register an address from 0x8000 on names: its 8 KB window and its lowest bit. -/
theorem dualRegister_toNat {a : Addr} (h : 0x8000 ≤ a.toNat) : (a &&& 0xE001).toNat = 0x8000 + 0x2000 * (a.toNat / 0x2000 % 4) + a.toNat % 2 := by
  have bound := a.isLt
  have low : (a.toNat &&& 0xE001) % 2 ^ 13 = a.toNat % 2 ^ 13 % 2 := by
    rw [Nat.and_mod_two_pow]
    exact Nat.and_two_pow_sub_one_eq_mod _ 1
  have high : (a.toNat &&& 0xE001) / 2 ^ 13 = a.toNat / 2 ^ 13 % 8 := by
    rw [Nat.and_div_two_pow]
    exact Nat.and_two_pow_sub_one_eq_mod _ 3
  rw [BitVec.toNat_and]
  show a.toNat &&& 0xE001 = _
  omega

theorem Cart.cpuWrite_dual {c : Cart} {r : DualRegs} (hr : c.regs = .dual r) {a : Addr} (ha : 0x8000 ≤ a.toNat) (v : Byte) :
    c.cpuWrite a v = c.dualWrite r a v := by
  rw [Cart.cpuWrite, if_pos ha, hr]

theorem Cart.selectMirroring_eq (c : Cart) (m : Mirroring) :
    c.selectMirroring m = { c with mirroring := if c.image.mirroring = .fourScreen then c.mirroring else m } := by
  unfold Cart.selectMirroring
  split <;> rfl

/-- Settles O56, by the register that the address names. -/
theorem dualRegisters : Obligations.DualRegisters := by
  intro c r a v hr ha slot reg odd value
  have hslot : (r.bankSelect.setWidth 3).toNat = slot := BitVec.toNat_setWidth 3 r.bankSelect
  have hvalue : dualClamp (r.bankSelect.setWidth 3) v = value := by rw [dualClamp, hslot]
  have parity : odd = 0 ∨ odd = 1 := Nat.mod_two_eq_zero_or_one _
  have register {w p : Nat} (hw : reg = w) (hp : odd = p) : (a &&& 0xE001).toNat = 0x8000 + 0x2000 * w + p := by
    rw [dualRegister_toNat ha, ← hw, ← hp]
  rw [Cart.cpuWrite_dual hr ha, Cart.dualWrite]
  refine ⟨fun hw hp => ?_, fun hw hp => ?_, fun hw hp => ?_, fun hw hp => ?_, fun hw => ?_, fun hw => ?_⟩
  · rw [register hw hp]
    rfl
  · rw [register hw hp]
    refine ⟨_, rfl, fun k => ?_⟩
    rw [Fin.getElem_fin, Vector.getElem_set, hvalue, hslot]
    simp only [eq_comm]
    rfl
  · rw [register hw hp]
    exact Cart.selectMirroring_eq _ _
  · rw [register hw hp]
    rfl
  · rcases parity with hp | hp <;> rw [register hw hp, hp] <;> rfl
  · rcases parity with hp | hp <;> rw [register hw hp, hp] <;> rfl

end Sys2Proof.Machine
end

section
/-! PROOFS. The encoding (30_encoding): the decoder and the encoder are inverse to each other, the opcodes that decode to nothing halt the machine, and the
addressing modes with their operand accesses and dummy reads. -/

namespace Sys2Proof

open Laws
open Machine (word)

/-! ## Decoding what the encoder wrote -/

/-- Every instruction's opcode and operand bytes are read back: the laws of `OpcodeShape`, constructor by constructor. -/
theorem opcodeShape_statement (i : Instr) : OpcodeShape.Statement i := by
  open OpcodeShape in
  cases i
  exacts [
    -- Group 01 (40_group01_alu)
    oraIzx _, oraZp _, oraImm _, oraAbs _, oraIzy _, oraZpx _, oraAby _, oraAbx _, andIzx _, andZp _, andImm _, andAbs _, andIzy _, andZpx _,
    andAby _, andAbx _, eorIzx _, eorZp _, eorImm _, eorAbs _, eorIzy _, eorZpx _, eorAby _, eorAbx _, adcIzx _, adcZp _, adcImm _, adcAbs _,
    adcIzy _, adcZpx _, adcAby _, adcAbx _, staIzx _, staZp _, staAbs _, staIzy _, staZpx _, staAby _, staAbx _, ldaIzx _, ldaZp _, ldaImm _,
    ldaAbs _, ldaIzy _, ldaZpx _, ldaAby _, ldaAbx _, cmpIzx _, cmpZp _, cmpImm _, cmpAbs _, cmpIzy _, cmpZpx _, cmpAby _, cmpAbx _, sbcIzx _,
    sbcZp _, sbcImm _, sbcAbs _, sbcIzy _, sbcZpx _, sbcAby _, sbcAbx _,
    -- Group 10 (41_group10_shift_x)
    aslZp _, aslAcc, aslAbs _, aslZpx _, aslAbx _, rolZp _, rolAcc, rolAbs _, rolZpx _, rolAbx _, lsrZp _, lsrAcc, lsrAbs _, lsrZpx _, lsrAbx _,
    rorZp _, rorAcc, rorAbs _, rorZpx _, rorAbx _, stxZp _, stxAbs _, stxZpy _, ldxImm _, ldxZp _, ldxAbs _, ldxZpy _, ldxAby _, decZp _, decAbs _,
    decZpx _, decAbx _, incZp _, incAbs _, incZpx _, incAbx _,
    -- Group 00 (42_group00_misc)
    bitZp _, bitAbs _, jmpAbs _, jmpInd _, styZp _, styAbs _, styZpx _, ldyImm _, ldyZp _, ldyAbs _, ldyZpx _, ldyAbx _, cpyImm _, cpyZp _, cpyAbs _,
    cpxImm _, cpxZp _, cpxAbs _,
    -- Branches (43_branches)
    bpl _, bmi _, bvc _, bvs _, bcc _, bcs _, bne _, beq _,
    -- One-byte instructions and JSR (44_single_byte)
    brk, jsr _, rti, rts, nop, php, plp, pha, pla, tay, tya, txa, tax, txs, tsx, dey, iny, inx, dex, clc, sec, cli, sei, clv, cld, sed,
    -- Undocumented no-operations (45_undocumented_nops)
    nopStar04 _, nopStar0C _, nopStar1A, nopStar3A, nopStar44 _, nopStar5A, nopStar64 _, nopStar7A, nopStarDA, nopStarFA, nopStarOther _ _]

/-- The decoder reads operand bytes as their shape does, whatever bytes follow. -/
theorem decode_of_readsAs {nops : List (Byte × NopEntry)} {op : Byte} {sh : Shape} {operand : List Byte} {i : Instr}
    (hs : shapeOf nops op = some sh) (hr : readsAs sh operand i) (rest : List Byte) : decode nops (op :: (operand ++ rest)) = .ok (i, rest) := by
  unfold readsAs at hr
  split at hr
  case h_1 j =>
    rw [← hr]
    exact decode_of_one hs rest
  case h_2 f b =>
    rw [← hr]
    exact decode_of_two hs b rest
  case h_3 f l h =>
    rw [← hr]
    simpa using decode_of_three hs (word h l) rest
  case h_4 n j =>
    obtain ⟨hl, rfl⟩ := hr
    rw [decode_of_unread hs _ (by simp [hl]), List.drop_left' hl]
  case h_5 => exact hr.elim

/-- Settles O1: the opcode has a shape, and the decoder reads the operand bytes in that shape. -/
theorem decodeInvertsEncode : Obligations.DecodeInvertsEncode := by
  intro nops i rest hw
  obtain ⟨sh, hs, hr⟩ := opcodeShape_statement i nops hw
  exact decode_of_readsAs hs hr rest

/-! ## Encoding what the decoder read -/

/-- What the decoder reads is an opcode and operand bytes of an instruction that fits them. -/
theorem fitsAt_of_decode {nops : List (Byte × NopEntry)} {bytes rest : List Byte} {i : Instr} (hn : nopTableWf nops = true)
    (h : decode nops bytes = .ok (i, rest)) : ∃ op operand, bytes = op :: (operand ++ rest) ∧ i.FitsAt nops op operand := by
  cases bytes with
  | nil => cases h
  | cons op tail =>
    have sound {sh : Shape} (hs : shapeOf nops op = some sh) : sh.Sound nops op := shapeOf_sound hn hs
    unfold decode at h
    dsimp only at h
    split at h
    case h_2 j hs =>
      cases h
      exact ⟨op, [], rfl, sound hs⟩
    case h_3 b _ hs =>
      cases h
      exact ⟨op, [b], rfl, sound hs b⟩
    case h_4 b1 b2 _ hs =>
      cases h
      have hf := sound hs (word b2 b1)
      rw [Machine.lo_word, Machine.hi_word] at hf
      exact ⟨op, [b1, b2], rfl, hf⟩
    case h_5 tail _ _ n j hs =>
      split at h
      case isTrue hle =>
        cases h
        exact ⟨op, tail.take n, by rw [List.take_append_drop], sound hs _ (List.length_take_of_le hle)⟩
      case isFalse => cases h
    all_goals cases h

/-- Settles O2, from the opcode and the operand bytes the instruction fits. -/
theorem encodeInvertsDecode : Obligations.EncodeInvertsDecode := by
  intro nops bytes i rest hn h
  obtain ⟨op, operand, rfl, hop, hlen, hwf, hkeeps⟩ := fitsAt_of_decode hn h
  have hl : i.length = (op :: operand).length := by rw [Machine.Instr.length_eq, hlen, List.length_cons]
  rw [← List.cons_append]
  refine ⟨hwf, by rw [List.take_left' hl.symm], by rw [List.length_append, hl], congrArg some hop.symm, fun hrow => ?_⟩
  have hkept : operandBytes i = operand := hkeeps.resolve_right fun ⟨e, he⟩ => hrow op e he
  rw [encode, hop, hkept]

end Sys2Proof

namespace Sys2Proof.Machine

/-! ## Samples and illegal opcodes -/

/-- Settles O4, by decoding the ten words. -/
theorem sampleWords : Obligations.SampleWords := by
  unfold Obligations.SampleWords
  rfl

/-- The listed opcodes are the cells the default table leaves empty, in order (30_encoding R163). -/
theorem illegalOpcodes_eq_filter :
    illegalOpcodes = (List.ofFn (BitVec.ofFin : Fin (2 ^ 8) → Byte)).filter fun op => (shapeOf defaultNops op).isNone := by
  decide

theorem shapeOf_defaultNops_isNone (op : Byte) : (shapeOf defaultNops op).isNone = illegalOpcodes.contains op := by
  have listed : op ∈ List.ofFn (BitVec.ofFin : Fin (2 ^ 8) → Byte) := List.mem_ofFn.mpr ⟨op.toFin, rfl⟩
  rw [Bool.eq_iff_iff, List.contains_iff_mem, illegalOpcodes_eq_filter, List.mem_filter]
  exact (and_iff_right listed).symm

/-- An opcode that decodes to nothing is all that is read (60_exceptions R310). -/
theorem State.fetch_illegal {s : State} (h : shapeOf s.params.undocNops (s.peek s.pc) = none) : s.fetch = (none, (s.cpuRead s.pc).2) := by
  unfold State.fetch
  dsimp only
  rw [show shapeOf s.params.undocNops (s.cpuRead s.pc).1 = none from h]

/-- Settles O3: the map cell by cell, and the step that fetches nothing. -/
theorem illegalOpcodesHalt : Obligations.IllegalOpcodesHalt := by
  refine ⟨shapeOf_defaultNops_isNone, rfl, fun s hr hn hs => ?_⟩
  have hf : (s.setEvents []).fetch = (none, ((s.setEvents []).cpuRead s.pc).2) :=
    State.fetch_illegal (by rw [State.peek_setEvents]; exact hs)
  exact step_illegal hr hn hf

/-! ## Addressing modes -/

/-- An indexed zero-page address wraps inside the zero page (R149, R150). -/
theorem zext16_add_toNat (b i : Byte) : (zext16 (b + i)).toNat = (b.toNat + i.toNat) % 256 := by
  rw [zext16_toNat, BitVec.toNat_add]

/-- An indexed address wraps modulo 65536 (decision D9). -/
theorem add_zext16_toNat (a : Addr) (i : Byte) : (a + zext16 i).toNat = (a.toNat + i.toNat) % 65536 := by
  rw [BitVec.toNat_add, zext16_toNat]

/-- Adding an index leaves the page exactly when the low byte carries, also around the end of the space (R147). -/
theorem pageCrossed_add_zext16 (a : Addr) (i : Byte) : pageCrossed a (a + zext16 i) = decide (256 ≤ a.toNat % 256 + i.toNat) := by
  have ha := a.isLt
  have hi := i.isLt
  rw [pageCrossed_eq, add_zext16_toNat, decide_eq_decide]
  omega

/-- The pointer of `(zp,X)` (R154, 20_memory R75). -/
theorem MemMode.effective_izx (b : Byte) (s : State) :
    ((MemMode.izx b).effective s).ea = word (s.ram.read (b + s.x + 1).toNat) (s.ram.read (b + s.x).toNat) := by
  simp only [MemMode.effective, State.read16Wrap_zeroPage]

/-- The pointer of `(zp),Y`, and the address it gives (R155, 20_memory R75). -/
theorem MemMode.effective_izy (b : Byte) (s : State) :
    (MemMode.izy b).effective s =
      { base := word (s.ram.read (b + 1).toNat) (s.ram.read b.toNat)
        ea := word (s.ram.read (b + 1).toNat) (s.ram.read b.toNat) + zext16 s.y, state := s } := by
  simp only [MemMode.effective, State.read16Wrap_zeroPage]

/-- The modes whose operand is accessed without indexing a 16-bit base never cross a page. -/
theorem MemMode.crossed_eq_false {m : MemMode} (h : m.mayDummyRead = false) (s : State) : (m.effective s).crossed = false := by
  cases m with
  | abx addr => cases h
  | aby addr => cases h
  | izy p => cases h
  | _ => exact pageCrossed_self _

/-- Settles O14, mode by mode. -/
theorem addressingModes : Obligations.AddressingModes := by
  intro s b addr
  have hp : (b + 1).toNat = (b.toNat + 1) % 256 := BitVec.toNat_add b 1
  refine ⟨fun m => m.effective_state s, zext16_toNat b, zext16_add_toNat b s.x, zext16_add_toNat b s.y, rfl, add_zext16_toNat addr s.x,
    add_zext16_toNat addr s.y, ?izx, ?izy, pageCrossed_add_zext16 addr s.x, pageCrossed_add_zext16 addr s.y, ?crossed, fun m hm => ?others⟩
  case izx => simp [MemMode.effective_izx]
  case izy =>
    rw [MemMode.effective_izy, add_zext16_toNat, word_toNat, hp, Nat.mul_comm]
  case crossed =>
    have low : (word (s.ram.read (b + 1).toNat) (s.ram.read b.toNat)).toNat % 256 = (s.ram.read b.toNat).toNat := by
      rw [← lo_toNat, lo_word]
    rw [MemMode.effective_izy, ← low]
    exact pageCrossed_add_zext16 _ s.y
  case others =>
    refine MemMode.crossed_eq_false ?_ s
    simp only [List.mem_cons, List.not_mem_nil, or_false] at hm
    rcases hm with rfl | rfl | rfl | rfl | rfl <;> rfl

/-! ## The access of an operand -/

/-- When the policy asks for a dummy read (R158). -/
theorem DummyReadPolicy.asks_iff (p : DummyReadPolicy) (crossed : Bool) :
    DummyReadPolicy.asks p crossed = true ↔ p = .always ∨ (p = .onPageCross ∧ crossed = true) := by
  cases p <;> simp [DummyReadPolicy.asks]

/-- The modes a dummy read belongs to (R158). -/
theorem MemMode.mayDummyRead_iff (m : MemMode) : m.mayDummyRead = true ↔ (∃ a, m = .abx a) ∨ (∃ a, m = .aby a) ∨ ∃ p, m = .izy p := by
  cases m <;> simp [MemMode.mayDummyRead]

/-- Settles O15: the pointer reads change nothing, so the access is the effective address in the state after the dummy read. -/
theorem operandReads : Obligations.OperandReads := by
  refine ⟨fun s v => rfl, fun s m => ?_⟩
  intro e dummy t
  have asked : (m.mayDummyRead && DummyReadPolicy.asks s.params.dummyRead e.crossed) = true ↔ dummy := by
    rw [Bool.and_eq_true, DummyReadPolicy.asks_iff]
  have access : m.access s = { ea := e.ea, crossed := e.crossed, state := t } := by
    simp only [MemMode.access, MemMode.effective_state]
    exact congrArg (Access.mk e.ea e.crossed) (if_congr asked rfl rfl)
  refine ⟨access, ?_, m.mayDummyRead_iff⟩
  rw [ReadMode.operand, access]

/-! ## DUMMY_READ_POLICY where the partial address is quiet -/

@[simp] theorem State.withDummyRead_flags (s : State) (p : DummyReadPolicy) : (s.withDummyRead p).flags = s.flags := rfl

theorem State.setFlags_withDummyRead (s : State) (p : DummyReadPolicy) (f : Flags) :
    (s.withDummyRead p).setFlags f = (s.setFlags f).withDummyRead p := rfl

theorem State.cpuRead_withDummyRead (s : State) (p : DummyReadPolicy) (a : Addr) :
    (s.withDummyRead p).cpuRead a = ((s.cpuRead a).1, (s.cpuRead a).2.withDummyRead p) := by
  have h := State.busOver_cpuRead s (s.withDummyRead p) a
  rw [show s.busOver (s.withDummyRead p) = s.withDummyRead p from rfl] at h
  rw [h, State.cpuRead_busOver s]
  rfl

theorem State.cpuWrite_withDummyRead (s : State) (p : DummyReadPolicy) (a : Addr) (v : Byte) :
    (s.withDummyRead p).cpuWrite a v = (s.cpuWrite a v).withDummyRead p := by
  have h := State.busOver_cpuWrite s (s.withDummyRead p) a v rfl
  rw [show s.busOver (s.withDummyRead p) = s.withDummyRead p from rfl] at h
  rw [h, State.cpuWrite_busOver s]
  rfl

theorem MemMode.effective_withDummyRead (m : MemMode) (s : State) (p : DummyReadPolicy) :
    m.effective (s.withDummyRead p) = { m.effective s with state := s.withDummyRead p } := by
  cases m with
  | izx b =>
    simp only [MemMode.effective, State.read16Wrap_zeroPage]
    rfl
  | izy b =>
    simp only [MemMode.effective_izy]
    rfl
  | _ => rfl

/-- A quiet dummy read leaves the state as it was, so the operand is accessed there under every policy (R158). -/
theorem MemMode.access_quiet {m : MemMode} {s : State} (h : quiet (m.effective s).partialAddr = true) :
    m.access s = { ea := (m.effective s).ea, crossed := (m.effective s).crossed, state := s } := by
  have hs : (m.access s).state = s := by
    rcases m.access_state s with e | e
    · exact e
    · rw [e, State.cpuRead_quiet h]
  exact congrArg (Access.mk _ _) hs

theorem MemMode.access_withDummyRead {m : MemMode} {s : State} (h : quiet (m.effective s).partialAddr = true) (p : DummyReadPolicy) :
    m.access (s.withDummyRead p) = { m.access s with state := (m.access s).state.withDummyRead p } := by
  have he := m.effective_withDummyRead s p
  have h' : quiet (m.effective (s.withDummyRead p)).partialAddr = true := by
    rw [he]
    exact h
  rw [MemMode.access_quiet h', MemMode.access_quiet h, he]
  rfl

theorem modifyMem_withDummyRead {m : MemMode} {s : State} (h : quiet (m.effective s).partialAddr = true) (f : Byte → Flags → Byte × Flags)
    (cost : Nat) (p : DummyReadPolicy) : modifyMem f m cost (s.withDummyRead p) = (modifyMem f m cost s).withDummyRead p := by
  simp only [modifyMem, MemMode.access_withDummyRead h, State.cpuRead_withDummyRead, State.withDummyRead_flags, State.setFlags_withDummyRead,
    State.cpuWrite_withDummyRead]
  rfl

theorem ImpliedOp.effect_withDummyRead (op : ImpliedOp) (s : State) (p : DummyReadPolicy) :
    op.effect (s.withDummyRead p) = (op.effect s).withDummyRead p := by
  cases op with
  | php => simp only [ImpliedOp.effect, phpEffect, State.push_eq]; rfl
  | pha => simp only [ImpliedOp.effect, phaEffect, State.push_eq]; rfl
  | plp => simp only [ImpliedOp.effect, plpEffect, State.pull_eq]; rfl
  | pla => simp only [ImpliedOp.effect, plaEffect, State.pull_eq]; rfl
  | _ => rfl

/-- The policy reaches nothing but itself: only a memory operand looks at it, and its dummy read is quiet. -/
theorem Action.perform_withDummyRead {act : Action} {s : State} (h : ∀ m, act.memMode = some m → quiet (m.effective s).partialAddr = true)
    (p : DummyReadPolicy) : act.perform (s.withDummyRead p) = (act.perform s).withDummyRead p := by
  cases act with
  | read op m =>
    have ho : m.operand (s.withDummyRead p) = { m.operand s with state := (m.operand s).state.withDummyRead p } := by
      cases m with
      | imm v => rfl
      | mem m => simp only [ReadMode.operand, MemMode.access_withDummyRead (h m rfl), State.cpuRead_withDummyRead]
    simp only [Action.perform, readInstr, ho]
    cases op <;> rfl
  | store op m =>
    have hv : op.value (s.withDummyRead p) = op.value s := by cases op <;> rfl
    simp only [Action.perform, storeInstr, hv, MemMode.access_withDummyRead (h m rfl), State.cpuWrite_withDummyRead]
    rfl
  | modify op m =>
    cases m with
    | acc => rfl
    | _ => exact modifyMem_withDummyRead (h _ rfl) _ _ p
  | branch op d =>
    show branchInstr (op.taken s.flags) d (s.withDummyRead p) = (branchInstr (op.taken s.flags) d s).withDummyRead p
    cases op.taken s.flags <;> rfl
  | implied op => exact congrArg (State.finish · 1 op.cost) (op.effect_withDummyRead s p)
  | jmp a => rfl
  | jmpInd a =>
    simp only [Action.perform, State.read16Wrap, State.cpuRead_withDummyRead]
    rfl
  | jsr a =>
    simp only [Action.perform, State.push16_eq]
    rfl
  | brk =>
    simp only [Action.perform]
    rw [State.enterHandler_eq _ _ _ _ (by decide) (by decide), State.enterHandler_eq _ _ _ _ (by decide) (by decide)]
    rfl
  | rti =>
    simp only [Action.perform, State.returnFromHandler_eq]
    rfl
  | rts =>
    simp only [Action.perform, State.pull16_eq]
    rfl
  | nopStar n => rfl

/-- Settles O16, from the action the instruction performs. -/
theorem dummyReadPolicyIsInvisible : Obligations.DummyReadPolicyIsInvisible := by
  intro i s t p hq he
  rw [exec_eq_perform] at he ⊢
  cases he
  rw [Action.perform_withDummyRead hq]

end Sys2Proof.Machine
end

section
/-! PROOFS. The results of the instructions that read an operand and of those that store a register (40_group01_alu, with LDX, STX, LDY, STY, CPX, CPY and BIT
of 41 and 42): the whole next state, with sums, differences and flags in integers. -/

namespace Sys2Proof.Machine

/-! ## The next state of a reading and of a storing instruction -/

/-- The rows of the opcode table other than `NOP*` need no table to be well formed, so their mode gives their encoded length (30 R142). -/
theorem action_length_of_ne_nopStar {i : Instr} (h : ∀ n, action i ≠ .nopStar n) : (action i).length = i.length := by
  have hw : i.wf defaultNops = true := by
    cases i with
    | nopStarOther op e => exact absurd rfl (h e.length)
    | _ => rfl
  exact action_length hw

@[simp] theorem ReadOp.effect_pc (op : ReadOp) (v : Byte) (s : State) : (op.effect v s).pc = s.pc := by cases op <;> rfl
@[simp] theorem ReadOp.effect_cycles (op : ReadOp) (v : Byte) (s : State) : (op.effect v s).cycles = s.cycles := by cases op <;> rfl

/-- A reading instruction: its mnemonic's effect on the operand in the state the operand's read left, then `PC` and the cycle count (70 R440). -/
theorem exec_read {i : Instr} {op : ReadOp} {m : ReadMode} (h : action i = .read op m) (s : State) :
    exec i s = .next
      { op.effect (m.operand s).value (m.operand s).state with
        pc := s.pc + BitVec.ofNat 16 i.length, cycles := s.cycles + m.cost (m.operand s).crossed } := by
  rw [exec_eq_perform, ← action_length_of_ne_nopStar (by simp [h]), h, Action.perform, readInstr, State.finish, ReadOp.effect_pc, ReadOp.effect_cycles, ReadMode.operand_pc,
    ReadMode.operand_cycles]
  rfl

/-- A storing instruction: one write of its register at the effective address, then `PC` and the cycle count (70 R440). -/
theorem exec_store {i : Instr} {op : StoreOp} {m : MemMode} (h : action i = .store op m) (s : State) :
    exec i s = .next
      { (m.access s).state.cpuWrite (m.access s).ea (op.value s) with
        pc := s.pc + BitVec.ofNat 16 i.length, cycles := s.cycles + m.storeCost } := by
  rw [exec_eq_perform, ← action_length_of_ne_nopStar (by simp [h]), h, Action.perform, storeInstr, State.finish, State.cpuWrite_pc, State.cpuWrite_cycles, MemMode.access_pc,
    MemMode.access_cycles]
  rfl

/-- Settles O22, by the equation of a storing instruction. -/
theorem storeResults : Obligations.StoreResults := by
  intro i op m s h
  rw [exec_store h]
  refine ⟨?sta, ?stx, ?sty⟩ <;> rintro rfl <;> rfl

/-! ## Bitwise results and loads -/

/-- A mnemonic that leaves `r` in the accumulator and nothing but `SetZN(r)` in the flags. -/
theorem exec_read_setA {i : Instr} {op : ReadOp} {m : ReadMode} {s : State} {r : Byte} (h : action i = .read op m)
    (he : op.effect (m.operand s).value (m.operand s).state = ((m.operand s).state.setA r).setFlags (s.flags.setZN r)) :
    exec i s = .next
      { (m.operand s).state with
        a := r, flags := { s.flags with z := decide (r.toNat = 0), n := decide (128 ≤ r.toNat) }
        pc := s.pc + BitVec.ofNat 16 i.length, cycles := s.cycles + m.cost (m.operand s).crossed } := by
  rw [exec_read h, he, Flags.setZN_eq]
  rfl

/-- Settles O17: each of the three leaves its bitwise result in the accumulator. -/
theorem logicalResults : Obligations.LogicalResults := by
  intro i op m s h
  refine ⟨?ora, ?and, ?eor⟩ <;> rintro rfl
  case ora => exact exec_read_setA h (by simp only [ReadOp.effect, oraEffect, ReadMode.operand_a, ReadMode.operand_flags])
  case and => exact exec_read_setA h (by simp only [ReadOp.effect, andEffect, ReadMode.operand_a, ReadMode.operand_flags])
  case eor => exact exec_read_setA h (by simp only [ReadOp.effect, eorEffect, ReadMode.operand_a, ReadMode.operand_flags])

/-- Settles O20: each of the three leaves the operand in its register. -/
theorem loadResults : Obligations.LoadResults := by
  intro i op m s h
  refine ⟨?lda, ?ldx, ?ldy⟩ <;> rintro rfl
  case lda => exact exec_read_setA h (by simp only [ReadOp.effect, ldaEffect, ReadMode.operand_flags])
  case ldx =>
    rw [exec_read h, ReadOp.effect, ldxEffect, ReadMode.operand_flags, Flags.setZN_eq]
    rfl
  case ldy =>
    rw [exec_read h, ReadOp.effect, ldyEffect, ReadMode.operand_flags, Flags.setZN_eq]
    rfl

/-! ## Compares and BIT -/

/-- A mnemonic that compares the register `r` with its operand. -/
theorem exec_read_compare {i : Instr} {op : ReadOp} {m : ReadMode} {s : State} {r : Byte} (h : action i = .read op m)
    (he : op.effect (m.operand s).value (m.operand s).state = (m.operand s).state.setFlags (s.flags.compare r (m.operand s).value)) :
    exec i s = .next
      { (m.operand s).state with
        flags := { s.flags with
          c := decide ((m.operand s).value.toNat ≤ r.toNat), z := decide (r.toNat = (m.operand s).value.toNat)
          n := decide (128 ≤ ((r.toNat : Int) - (m.operand s).value.toNat) % 256) }
        pc := s.pc + BitVec.ofNat 16 i.length, cycles := s.cycles + m.cost (m.operand s).crossed } := by
  rw [exec_read h, he, Flags.compare_eq]
  rfl

/-- Bit `k` of a byte in numbers. -/
theorem getLsbD_eq_decide (v : Byte) (k : Nat) : v.getLsbD k = decide (v.toNat / 2 ^ k % 2 = 1) := by
  rw [← BitVec.testBit_toNat, Nat.testBit_eq_decide_div_mod_eq]

/-- BIT in numbers (42 R221). -/
theorem Flags.bitTest_eq (a m : Byte) (f : Flags) :
    f.bitTest a m =
      { f with z := decide (a &&& m = 0), n := decide (m.toNat / 128 % 2 = 1), v := decide (m.toNat / 64 % 2 = 1) } := by
  rw [Flags.bitTest, getLsbD_eq_decide, getLsbD_eq_decide]
  rfl

/-- Settles O21: the flags of the compares and of BIT in numbers. -/
theorem compareAndBitResults : Obligations.CompareAndBitResults := by
  intro i op m s h
  refine ⟨?cmp, ?cpx, ?cpy, ?bit⟩ <;> rintro rfl
  case cmp => exact exec_read_compare h (by simp only [ReadOp.effect, cmpEffect, ReadMode.operand_a, ReadMode.operand_flags])
  case cpx => exact exec_read_compare h (by simp only [ReadOp.effect, cpxEffect, ReadMode.operand_x, ReadMode.operand_flags])
  case cpy => exact exec_read_compare h (by simp only [ReadOp.effect, cpyEffect, ReadMode.operand_y, ReadMode.operand_flags])
  case bit =>
    rw [exec_read h, ReadOp.effect, bitEffect, ReadMode.operand_a, ReadMode.operand_flags, Flags.bitTest_eq]
    rfl

/-! ## Sums and differences -/

/-- The flags of ADC in numbers (R184). -/
theorem Flags.adc_eq (a m : Byte) (f : Flags) :
    f.adc a m =
      { f with
        c := decide (255 < a.toNat + m.toNat + f.c.toNat), z := decide ((a.toNat + m.toNat + f.c.toNat) % 256 = 0)
        n := decide (128 ≤ (a.toNat + m.toNat + f.c.toNat) % 256)
        v := decide (a.msb = m.msb ∧ (BitVec.ofNat 8 (a.toNat + m.toNat + f.c.toNat)).msb ≠ a.msb) } := by
  rw [Flags.adc, Flags.setZN_eq, adcResult_toNat, adcOverflow_eq]
  rfl

/-- The sign rule of R184 is signed overflow (R189 (b)). -/
theorem signRule_iff_signedOverflow (a b : Byte) (c : Bool) :
    (a.msb = b.msb ∧ (BitVec.ofNat 8 (a.toNat + b.toNat + c.toNat)).msb ≠ a.msb)
      ↔ (a.toInt + b.toInt + c.toNat < -128 ∨ 127 < a.toInt + b.toInt + c.toNat) := by
  have ha := a.isLt
  have hb := b.isLt
  have hc := Bool.toNat_lt c
  simp only [toInt_byte, BitVec.msb_eq_decide, BitVec.toNat_ofNat, decide_eq_true_eq, decide_eq_decide, ne_eq]
  omega

theorem adcOverflow_eq_signedOverflow (a b : Byte) (c : Bool) :
    adcOverflow a b c = decide (a.toInt + b.toInt + c.toNat < -128 ∨ 127 < a.toInt + b.toInt + c.toNat) := by
  rw [adcOverflow_eq]
  exact decide_eq_decide.mpr (signRule_iff_signedOverflow a b c)

/-- The complement of a signed byte (R188). -/
theorem not_toInt (m : Byte) : (~~~m).toInt = -m.toInt - 1 := by
  have hm := m.isLt
  simp only [toInt_byte, BitVec.msb_eq_decide, not_toNat, decide_eq_true_eq]
  omega

/-- The flags of a sum with the complement are those of a difference with borrow (R188). -/
theorem Flags.adc_not_eq (a m : Byte) (f : Flags) :
    f.adc a (~~~m) =
      { f with
        c := decide (0 ≤ (a.toNat : Int) - m.toNat - (1 - f.c.toNat)), z := decide (((a.toNat : Int) - m.toNat - (1 - f.c.toNat)) % 256 = 0)
        n := decide (128 ≤ ((a.toNat : Int) - m.toNat - (1 - f.c.toNat)) % 256)
        v := decide (a.toInt - m.toInt - (1 - f.c.toNat) < -128 ∨ 127 < a.toInt - m.toInt - (1 - f.c.toNat)) } := by
  have hm := m.isLt
  have hsigned : a.toInt + (-m.toInt - 1) + f.c.toNat = a.toInt - m.toInt - (1 - f.c.toNat) := by omega
  have hsum : ((a.toNat + (255 - m.toNat) + f.c.toNat : Nat) : Int) = (a.toNat : Int) - m.toNat - (1 - f.c.toNat) + 256 := by omega
  rw [Flags.adc, Flags.setZN_eq, adcResult_toNat, adcCarry, adcOverflow_eq_signedOverflow, not_toNat, not_toInt, hsigned, Flags.mk.injEq]
  simp only [decide_eq_decide, true_and]
  omega

end Sys2Proof.Machine

/-! Outside `Machine`, whose own `adcResult` is the 8-bit sum. -/

namespace Sys2Proof

open Machine

/-- Settles O18, by the flags of ADC in numbers and the meaning of its sign rule. -/
theorem adcResult : Obligations.AdcResult := by
  refine ⟨fun i m s h => ?result, signRule_iff_signedOverflow⟩
  rw [exec_read h, ReadOp.effect, adcEffect, ReadMode.operand_a, ReadMode.operand_flags, Flags.adc_eq]
  rfl

/-- Settles O19: SBC is the sum with the complement, whose result and flags are the difference's. -/
theorem sbcResult : Obligations.SbcResult := by
  intro i m s h
  rw [exec_read h, ReadOp.effect, sbcEffect, adcEffect, ReadMode.operand_a, ReadMode.operand_flags, adcResult_not, Flags.adc_not_eq]
  rfl

end Sys2Proof
end

section
/-! PROOFS. The results of the instructions that read, modify and write (41_group10_shift_x R200): the whole next state, the new value and the carry in
numbers. -/

namespace Sys2Proof.Machine

/-- A modifying instruction applies its mnemonic's function in its mode. -/
theorem exec_modify {i : Instr} {op : ModifyOp} {m : RmwMode} (h : action i = .modify op m) (s : State) : exec i s = .next (modifyInstr op.fn m s) := by
  rw [exec_eq_perform, h, Action.perform]

/-- The new flags of a modifying mnemonic, of the old value `v` (41 R201 to R204, R207, R208). -/
def ModifyOp.newFlags (op : ModifyOp) (v : Byte) (f : Flags) : Flags :=
  { f with
    c := op.carryOut v.toNat f.c, z := decide (op.newValue v.toNat f.c = 0), n := decide (128 ≤ op.newValue v.toNat f.c) }

theorem ModifyOp.fn_fst (op : ModifyOp) (v : Byte) (f : Flags) : (op.fn v f).1 = BitVec.ofNat 8 (op.newValue v.toNat f.c) := by rw [op.fn_eq]
theorem ModifyOp.fn_snd (op : ModifyOp) (v : Byte) (f : Flags) : (op.fn v f).2 = op.newFlags v f := by rw [op.fn_eq, ModifyOp.newFlags]

/-- In mode ACC the new value replaces the accumulator. -/
theorem modifyInstr_acc (op : ModifyOp) (s : State) :
    modifyInstr op.fn .acc s =
      { s with
        a := BitVec.ofNat 8 (op.newValue s.a.toNat s.flags.c), flags := op.newFlags s.a s.flags
        pc := s.pc + BitVec.ofNat 16 RmwMode.acc.length, cycles := s.cycles + RmwMode.acc.cost } := by
  rw [← op.fn_fst, ← op.fn_snd]
  rfl

/-- On memory: one read at the effective address, then one write of the new value there (decision D7). The flags change before the write, which does not
look at them. -/
theorem modifyMem_eq (op : ModifyOp) (m : MemMode) (cost : Nat) (s : State) :
    modifyMem op.fn m cost s =
      let acc := m.access s
      let v := acc.state.cpuRead acc.ea
      { v.2.cpuWrite acc.ea (BitVec.ofNat 8 (op.newValue v.1.toNat s.flags.c)) with
        flags := op.newFlags v.1 s.flags, pc := s.pc + BitVec.ofNat 16 m.length, cycles := s.cycles + cost } := by
  simp only [modifyMem, State.cpuRead_flags, MemMode.access_flags, op.fn_fst, op.fn_snd, State.cpuWrite_setFlags, State.finish, State.setFlags_pc,
    State.setFlags_cycles, State.cpuWrite_pc, State.cpuWrite_cycles, State.cpuRead_pc, State.cpuRead_cycles, MemMode.access_pc, MemMode.access_cycles]
  rfl

/-- In a memory mode a modifying instruction is `modifyMem` at that mode, with the class's cost. -/
theorem modifyInstr_mem {m : RmwMode} {mem : MemMode} (h : m.mem = some mem) (f : Byte → Flags → Byte × Flags) (s : State) :
    modifyInstr f m s = modifyMem f mem m.cost s := by
  cases m <;> cases h <;> rfl

/-- The read-modify-write class encodes a memory mode in as many bytes as any other class (30 R142). -/
theorem RmwMode.mem_length {m : RmwMode} {mem : MemMode} (h : m.mem = some mem) : mem.length = m.length := by
  cases m <;> cases h <;> rfl

/-- Settles O23, by the equations of the two kinds of operand, the accumulator and memory. -/
theorem modifyResults : Obligations.ModifyResults := by
  intro i op m s h
  have hlength : m.length = i.length := by
    rw [← action_length_of_ne_nopStar (by simp [h]), h, Action.length]
  rw [exec_modify h, ← hlength]
  refine ⟨?acc, ?memory⟩
  case acc =>
    rintro rfl
    rw [modifyInstr_acc]
    rfl
  case memory =>
    intro mem hmem
    rw [modifyInstr_mem hmem, modifyMem_eq, RmwMode.mem_length hmem]
    rfl

end Sys2Proof.Machine
end

section
/-! PROOFS. The results of the control transfers (42_group00_misc R222, R223; 44_single_byte R262 to R264). -/

namespace Sys2Proof.Machine

/-- The pointer's second byte lies in the pointer's own page (30 R156), as a number. -/
theorem nextInPage_eq_ofNat (a : Addr) : nextInPage a = BitVec.ofNat 16 (a.toNat / 256 * 256 + (a.toNat + 1) % 256) := by
  rw [← nextInPage_toNat, BitVec.ofNat_toNat, BitVec.setWidth_eq]

@[simp] theorem State.read16Wrap_cycles (s : State) (a : Addr) : (s.read16Wrap a).2.cycles = s.cycles := by
  simp only [State.read16Wrap, State.cpuRead_cycles]

/-- JMP indirect reads its target through the page-wrapping pointer, low byte first (42 R223). -/
theorem exec_jmpInd (addr : Addr) (s : State) :
    exec (.jmpInd addr) s =
      let low := s.cpuRead addr
      let high := low.2.cpuRead (BitVec.ofNat 16 (addr.toNat / 256 * 256 + (addr.toNat + 1) % 256))
      .next { high.2 with pc := word high.1 low.1, cycles := s.cycles + 5 } := by
  rw [exec_eq_perform, action, Action.perform, State.jump, State.read16Wrap_cycles, State.read16Wrap, nextInPage_eq_ofNat]
  rfl

/-- JSR pushes the address of its own last byte (44 R262). -/
theorem exec_jsr (addr : Addr) (s : State) :
    exec (.jsr addr) s = .next
      { s with
        sp := s.sp - 2, pc := addr, cycles := s.cycles + 6
        ram := (s.ram.write (0x100 + s.sp.toNat) (hi (s.pc + 2))).write (0x100 + (s.sp - 1).toNat) (lo (s.pc + 2)) } := by
  rw [exec_eq_perform, action, Action.perform, State.push16_eq]
  rfl

/-- RTS continues one byte after the address it pulls (44 R264). -/
theorem exec_rts (s : State) :
    exec .rts s = .next
      { s with
        sp := s.sp + 2, cycles := s.cycles + 6
        pc := word (s.ram.read (0x100 + (s.sp + 2).toNat)) (s.ram.read (0x100 + (s.sp + 1).toNat)) + 1 } := by
  rw [exec_eq_perform, action, Action.perform, State.pull16_eq]
  rfl

/-- RTI pulls the status, then the address, which it uses as it is (44 R263). -/
theorem exec_rti (s : State) :
    exec .rti s = .next
      { s with
        sp := s.sp + 3, flags := Flags.unpack (s.ram.read (0x100 + (s.sp + 1).toNat))
        pc := word (s.ram.read (0x100 + (s.sp + 3).toNat)) (s.ram.read (0x100 + (s.sp + 2).toNat)), cycles := s.cycles + 6 } := by
  rw [exec_eq_perform, action, Action.perform, State.returnFromHandler_eq]
  rfl

/-- Settles O12, by the equation of each control transfer; an absolute JMP is `jump` itself. -/
theorem controlTransferResults : Obligations.ControlTransferResults :=
  fun s addr => ⟨rfl, exec_jmpInd addr s, exec_jsr addr s, exec_rts s, exec_rti s⟩

end Sys2Proof.Machine
end

section
/-! PROOFS. The results of the branches (43_branches R240 to R248). -/

namespace Sys2Proof.Machine

/-- A branch is taken when its flag has its polarity (43 R240). -/
theorem BranchOp.taken_iff (op : BranchOp) (f : Flags) : op.taken f = true ↔ op.flag f = op.polarity := by
  cases op <;> simp [BranchOp.taken, BranchOp.flag, BranchOp.polarity]

/-- Adding a signed displacement wraps modulo 65536 (30 R157, decision D9). -/
theorem add_sext16_toNat (a : Addr) (d : Byte) : (a + sext16 d).toNat = ((a.toNat + d.toInt) % 65536).toNat := by
  rw [BitVec.toNat_add, sext16, BitVec.signExtend, BitVec.toNat_ofInt]
  omega

/-- A taken branch costs a cycle more when it leaves the next instruction's page (43 R240, 70 R441). -/
theorem takenCost_eq (a b : Addr) : 3 + (pageCrossed a b).toNat = if a.toNat / 256 = b.toNat / 256 then 3 else 4 := by
  rw [pageCrossed_eq]
  split <;> simp [*]

/-- The branch instruction in numbers. -/
theorem branchInstr_eq (taken : Bool) (d : Byte) (s : State) :
    branchInstr taken d s =
      let next := (s.pc.toNat + 2) % 65536
      let target := ((next + d.toInt) % 65536).toNat
      { s with
        pc := BitVec.ofNat 16 (if taken then target else next)
        cycles := s.cycles + (if taken then (if next / 256 = target / 256 then 3 else 4) else 2) } := by
  have hnext : (s.pc.toNat + 2) % 65536 = (s.pc + 2).toNat := (BitVec.toNat_add s.pc 2).symm
  simp only [hnext, ← add_sext16_toNat, ← takenCost_eq, ← apply_ite BitVec.toNat, BitVec.ofNat_toNat, BitVec.setWidth_eq]
  cases taken
  case false => rfl
  case true => rfl

/-- Settles O28, by the branch in numbers, taken as the flag and its polarity say. -/
theorem branchResults : Obligations.BranchResults := by
  intro i op d s h
  rw [exec_eq_perform, h, Action.perform, branchInstr_eq]
  simp only [op.taken_iff]

end Sys2Proof.Machine
end

section
/-! PROOFS. The results of the one-byte instructions and of the undocumented no-operations (44_single_byte, 45_undocumented_nops, 60_exceptions R319, R320):
the whole next state of each, and that a return undoes its entry. -/

namespace Sys2Proof.Machine

/-! ## The next state of an instruction without operands -/

@[simp] theorem ImpliedOp.effect_pc (op : ImpliedOp) (s : State) : (op.effect s).pc = s.pc := by
  cases op <;> simp only [ImpliedOp.effect, phpEffect, phaEffect, plpEffect, plaEffect, State.push_eq, State.pull_eq] <;> rfl

@[simp] theorem ImpliedOp.effect_cycles (op : ImpliedOp) (s : State) : (op.effect s).cycles = s.cycles := by
  cases op <;> simp only [ImpliedOp.effect, phpEffect, phaEffect, plpEffect, plaEffect, State.push_eq, State.pull_eq] <;> rfl

/-- A one-byte instruction: its mnemonic's effect, then `PC` and the cycle count (44 R260). -/
theorem exec_implied {i : Instr} {op : ImpliedOp} (h : action i = .implied op) (s : State) :
    exec i s = .next { op.effect s with pc := s.pc + 1, cycles := s.cycles + op.cost } := by
  rw [exec_eq_perform, h, Action.perform, impliedInstr, State.finish, ImpliedOp.effect_pc, ImpliedOp.effect_cycles]
  rfl

/-- A one-byte instruction whose effect ends in `SetZN(r)` on the flags it found. -/
theorem exec_implied_setZN {i : Instr} {op : ImpliedOp} {s t : State} {r : Byte} (h : action i = .implied op)
    (he : op.effect s = t.setFlags (s.flags.setZN r)) :
    exec i s = .next
      { t with
        flags := { s.flags with z := decide (r.toNat = 0), n := decide (128 ≤ r.toNat) }, pc := s.pc + 1, cycles := s.cycles + op.cost } := by
  rw [exec_implied h, he, Flags.setZN_eq]
  rfl

/-! ## Transfers, counting and flags -/

/-- Incrementing wraps modulo 256 (44 R271, R272). -/
theorem add_one_toNat (r : Byte) : (r + 1).toNat = (r.toNat + 1) % 256 := BitVec.toNat_add r 1

/-- Decrementing wraps modulo 256 (44 R269, R285). -/
theorem sub_one_toNat (r : Byte) : (r - 1).toNat = (r.toNat + 255) % 256 := by
  rw [BitVec.toNat_sub, Nat.add_comm]
  rfl

/-- Settles O24: each effect but TXS's ends in `SetZN` of the value it moved or counted. -/
theorem transferAndCountResults : Obligations.TransferAndCountResults := by
  intro s
  simp only [← add_one_toNat, ← sub_one_toNat, BitVec.ofNat_toNat, BitVec.setWidth_eq]
  exact ⟨exec_implied_setZN (op := .tay) rfl rfl, exec_implied_setZN (op := .tya) rfl rfl, exec_implied_setZN (op := .txa) rfl rfl,
    exec_implied_setZN (op := .tax) rfl rfl, exec_implied_setZN (op := .tsx) rfl rfl, exec_implied (op := .txs) rfl s,
    exec_implied_setZN (op := .inx) rfl rfl, exec_implied_setZN (op := .iny) rfl rfl, exec_implied_setZN (op := .dex) rfl rfl,
    exec_implied_setZN (op := .dey) rfl rfl⟩

/-- The encoded length of a `NOP*` is its entry's, which R300 takes from 1 on (30 R142). -/
theorem Instr.length_of_nopStar {i : Instr} {n : Nat} (h : action i = .nopStar n) (hn : 1 ≤ n) : i.length = n := by
  cases i with
  | nopStarOther op e =>
    obtain rfl : e.length = n := Action.nopStar.inj h
    rw [Instr.length_eq, operandBytes, List.length_replicate, Nat.sub_add_cancel hn]
  | _ => exact (action_length (nops := defaultNops) rfl).symm.trans (congrArg Action.length h)

/-- Settles O25: the effect of each flag instruction is its one flag, NOP's is nothing, and `NOP*` only ends. -/
theorem flagAndNopResults : Obligations.FlagAndNopResults := by
  refine ⟨fun s => ?flags, fun i n s h => ⟨Instr.length_of_nopStar h, ?nopStar⟩⟩
  case flags =>
    exact ⟨exec_implied (op := .clc) rfl s, exec_implied (op := .sec) rfl s, exec_implied (op := .cli) rfl s, exec_implied (op := .sei) rfl s,
      exec_implied (op := .clv) rfl s, exec_implied (op := .cld) rfl s, exec_implied (op := .sed) rfl s, exec_implied (op := .nop) rfl s⟩
  case nopStar =>
    rw [exec_eq_perform, h]
    rfl

/-! ## The stack -/

/-- Settles O26: a push and a pull, each by its equation; the slot above the pointer is taken modulo 256. -/
theorem stackResults : Obligations.StackResults := by
  intro s
  simp only [← add_one_toNat]
  refine ⟨?php, ?pha, ?plp, ?pla⟩
  case php =>
    rw [exec_implied (op := .php) rfl, ImpliedOp.effect, phpEffect, State.push_eq]
    rfl
  case pha =>
    rw [exec_implied (op := .pha) rfl, ImpliedOp.effect, phaEffect, State.push_eq]
    rfl
  case plp =>
    rw [exec_implied (op := .plp) rfl, ImpliedOp.effect, plpEffect, State.pull_eq]
    rfl
  case pla =>
    refine exec_implied_setZN (op := .pla) (t := (s.setSp (s.sp + 1)).setA _) rfl ?_
    rw [ImpliedOp.effect, plaEffect, State.pull_eq]
    rfl

/-! ## Entries and returns -/

/-- Settles O11: BRK is an entry through 0xFFFE (60 R319) from the state with `B` set. -/
theorem brkResult : Obligations.BrkResult := by
  intro s
  rw [exec_eq_perform, action, Action.perform, State.enterHandler_eq _ _ _ _ (by decide) (by decide)]
  rfl

section
variable {ram : Memory}

/-- Slots of page 1 differ as the stack pointers that name them do (10_state R22). -/
theorem Memory.read_write_slot (hw : ram.wf = true) (p q : Byte) (v : Byte) :
    (ram.write (0x100 + q.toNat) v).read (0x100 + p.toNat) = if p = q then v else ram.read (0x100 + p.toNat) := by
  rw [Memory.read_write _ _ _ _ hw]
  simp only [Nat.add_left_cancel_iff, BitVec.toNat_inj]

/-- The two bytes of a pushed address are found where they were pushed (00_scope R10). -/
theorem Memory.read_pushedAddr (hw : ram.wf = true) (sp h l : Byte) :
    let m := (ram.write (0x100 + sp.toNat) h).write (0x100 + (sp - 1).toNat) l
    m.read (0x100 + sp.toNat) = h ∧ m.read (0x100 + (sp - 1).toNat) = l := by
  have hne : sp ≠ sp - 1 := by bv_omega
  simp only [Memory.read_write_slot hw, Memory.read_write_slot (Memory.wf_write _ _ hw), if_neg hne, if_true, and_self]

/-- The three bytes of an entry are found where they were pushed (60 R315, R319). -/
theorem entryRam_read (hw : ram.wf = true) (sp : Byte) (ret : Addr) (status : Byte) :
    (entryRam ram sp ret status).read (0x100 + sp.toNat) = hi ret
      ∧ (entryRam ram sp ret status).read (0x100 + (sp - 1).toNat) = lo ret
      ∧ (entryRam ram sp ret status).read (0x100 + (sp - 2).toNat) = status := by
  have hne : sp ≠ sp - 2 := by bv_omega
  have hne' : sp - 1 ≠ sp - 2 := by bv_omega
  obtain ⟨hhi, hlo⟩ := Memory.read_pushedAddr hw sp (hi ret) (lo ret)
  simp only [entryRam, Memory.read_write_slot (Memory.wf_write _ _ (Memory.wf_write _ _ hw)), if_neg hne, if_neg hne', if_true, hhi, hlo, and_self]

/-- RTI after an entry: it pulls the status and the address the entry pushed, and the stack pointer is back (60 R320). -/
theorem exec_rti_of_entry (hw : ram.wf = true) {u : State} {sp : Byte} {ret : Addr} {f : Flags} (hsp : u.sp = sp - 3)
    (hram : u.ram = entryRam ram sp ret f.pack) :
    exec .rti u = .next { u with sp := sp, flags := f, pc := ret, cycles := u.cycles + 6 } := by
  obtain ⟨hhi, hlo, hstatus⟩ := entryRam_read hw sp ret f.pack
  have h1 : sp - 3 + 1 = sp - 2 := by bv_omega
  have h2 : sp - 3 + 2 = sp - 1 := by bv_omega
  have h3 : sp - 3 + 3 = sp := by bv_omega
  rw [exec_rti, hsp, hram, h1, h2, h3, hhi, hlo, hstatus, word_hi_lo, Flags.unpack_pack]

/-- RTS after a JSR: it continues one byte after the address the JSR pushed, and the stack pointer is back (44 R264). -/
theorem exec_rts_of_pushedAddr (hw : ram.wf = true) {u : State} {sp : Byte} {w : Addr} (hsp : u.sp = sp - 2)
    (hram : u.ram = (ram.write (0x100 + sp.toNat) (hi w)).write (0x100 + (sp - 1).toNat) (lo w)) :
    exec .rts u = .next { u with sp := sp, pc := w + 1, cycles := u.cycles + 6 } := by
  obtain ⟨hhi, hlo⟩ := Memory.read_pushedAddr hw sp (hi w) (lo w)
  have h1 : sp - 2 + 1 = sp - 1 := by bv_omega
  have h2 : sp - 2 + 2 = sp := by bv_omega
  rw [exec_rts, hsp, hram, h1, h2, hhi, hlo, word_hi_lo]

end

/-- What a step that services an NMI leaves of the stack: the entry's three bytes; the dots that follow touch neither the pointer nor RAM. -/
theorem step_nmi_stack {s t : State} (h : s.Running) (hn : s.nmiPending = true) (hs : step s = .next t) :
    t.sp = s.sp - 3 ∧ t.ram = entryRam s.ram s.sp s.pc s.flags.pack := by
  rw [step_nmi h hn, State.nmiEntry_eq, State.enterHandler_eq _ _ _ _ (by decide) (by decide)] at hs
  obtain rfl := Host.Outcome.next.inj hs
  exact ⟨(State.ticks_outside _ _).sp, (State.ticks_outside _ _).ram⟩

/-- Settles O13: each return reads back, in RAM as its entry left it, the bytes that entry pushed. -/
theorem returnsRestore : Obligations.ReturnsRestore := by
  intro s t u hw hsp hram
  refine ⟨fun target ht => ?jsr, fun ht => ?brk, fun hr hn ht => ?nmi⟩
  case jsr =>
    obtain rfl := Host.Outcome.next.inj ((exec_jsr target s).symm.trans ht)
    exact ⟨_, exec_rts_of_pushedAddr hw hsp hram, BitVec.add_assoc s.pc 2 1, rfl⟩
  case brk =>
    obtain rfl := Host.Outcome.next.inj ((brkResult s).symm.trans ht)
    exact ⟨_, exec_rti_of_entry hw hsp hram, rfl, rfl, rfl⟩
  case nmi =>
    obtain ⟨tsp, tram⟩ := step_nmi_stack hr hn ht
    exact ⟨_, exec_rti_of_entry hw (hsp.trans tsp) (hram.trans tram), rfl, rfl, rfl⟩

end Sys2Proof.Machine
end

section
/-! PROOFS. A step that fetches no instruction: the service of an NMI (60_exceptions R315 to R318), and the halted machine, which has no step (R313). -/

namespace Sys2Proof.Machine

/-! ## The NMI entry -/

/-- The dots that follow a unit of `n` cycles (70 R426). -/
theorem catchUp_of_cycles {s t : State} {n : Nat} (h : t.cycles = s.cycles + n) : catchUp s t = State.ticks (dotsPerCycle * n) t := by
  rw [catchUp, h, Nat.add_sub_cancel_left]

/-- Settles O10: a step that services an NMI is an entry through 0xFFFA in 7 cycles, then the dots of those cycles. -/
theorem nmiIsServicedFirst : Obligations.NmiIsServicedFirst := by
  intro s hr hn
  rw [step_nmi hr hn, State.nmiEntry_eq, State.enterHandler_eq _ _ _ _ (by decide) (by decide), catchUp_of_cycles (n := 7) rfl]
  rfl

/-! ## The halted machine -/

/-- The loop of `step(minCycles)` runs no unit of a halted machine (60 R313, 70 R422). -/
theorem procLoop_halted {s : State} (h : s.halted ≠ none) (n : Int) (fuel consumed : Nat) : procLoop n fuel consumed s = (consumed, s) := by
  cases fuel with
  | zero => rfl
  | succ fuel => rw [procLoop, if_neg fun hc => h hc.2]

/-- The loop of "run one frame" ends where a step faults (70 R427). -/
theorem frameLoop_fault {s : State} {r : Fault} (h : step s = .fault r) (fuel : Nat) : frameLoop fuel s = s := by
  cases fuel with
  | zero => rfl
  | succ fuel => rw [frameLoop, show oneRound s = .fault r from h]

/-- Settles O7: the step is the fault, so both loops stop before they run a unit, and `halted` is none of what `reset()` changes. -/
theorem haltedMachineStands : Obligations.HaltedMachineStands := by
  intro s pc op n h
  refine ⟨step_halted h, ?procStep, frameLoop_fault (step_halted h) _, ?reset⟩
  case procStep => exact procLoop_halted (h ▸ Option.some_ne_none _) n _ _
  case reset => rw [State.resetProcessor_eq, h]

end Sys2Proof.Machine
end

section
/-! PROOFS. The registers of the picture unit as the processor writes them (61_picture_unit R357 to R371): each register's store, and the data register's write
as the picture unit's bus sees it. -/

namespace Sys2Proof.Machine

/-! ## The registers but the data register -/

/-- A write in the window reaches the register its address names modulo 8 (20_memory R63). -/
theorem State.cpuWrite_register {a : Addr} {r : PpuReg} (h : 0x2000 ≤ a.toNat) (h' : a.toNat < 0x4000) (hr : ppuRegOf a = r) (s : State) (v : Byte) :
    s.cpuWrite a v = s.regWrite r v := by
  unfold State.cpuWrite
  rw [regionOf_window h h', hr]

theorem State.inWarmup_iff (s : State) : s.inWarmup = true ↔ s.cycles < s.params.warmupCycles := decide_eq_true_iff

theorem Ppu.activeRendering_iff (p : Ppu) :
    p.activeRendering = true ↔ (p.mask.getLsbD 3 ∨ p.mask.getLsbD 4) ∧ -1 ≤ p.scanline ∧ p.scanline ≤ 239 := by
  simp only [Ppu.activeRendering, Ppu.renderingEnabled, Bool.and_eq_true, Bool.or_eq_true, decide_eq_true_eq, and_assoc]

theorem State.regWrite_control (s : State) (v : Byte) :
    s.regWrite .control v
      = s.setPpu (if s.cycles < s.params.warmupCycles then { s.ppu with lastWrite := v } else { s.ppu with lastWrite := v, ctrl := v }) := by
  simp only [State.regWrite, State.regAction, State.inWarmup_iff, apply_ite s.setPpu]
  rfl

theorem State.regWrite_oamData (s : State) (v : Byte) :
    s.regWrite .oamData v = s.setPpu
      (if (s.ppu.mask.getLsbD 3 ∨ s.ppu.mask.getLsbD 4) ∧ -1 ≤ s.ppu.scanline ∧ s.ppu.scanline ≤ 239 then { s.ppu with lastWrite := v }
        else { s.ppu with lastWrite := v, oam := s.ppu.oam.write s.ppu.oamAddr.toNat v, oamAddr := s.ppu.oamAddr + 1 }) := by
  simp only [State.regWrite, State.regAction, Ppu.activeRendering_iff, apply_ite s.setPpu]
  rfl

theorem State.regWrite_scroll (s : State) (v : Byte) :
    s.regWrite .scroll v = s.setPpu
      (if s.ppu.w = false then { s.ppu with lastWrite := v, scrollX := v, w := true } else { s.ppu with lastWrite := v, scrollY := v, w := false }) := by
  simp only [State.regWrite, State.regAction, ← Bool.not_eq_true, ite_not, apply_ite s.setPpu]
  rfl

theorem State.regWrite_address (s : State) (v : Byte) :
    s.regWrite .address v = s.setPpu
      (if s.ppu.w = false then { s.ppu with lastWrite := v, vramAddr := word v (lo s.ppu.vramAddr), w := true }
        else { s.ppu with lastWrite := v, vramAddr := word (hi s.ppu.vramAddr) v, w := false }) := by
  simp only [State.regWrite, State.regAction, ← Bool.not_eq_true, ite_not, apply_ite s.setPpu]
  rfl

/-- Settles O45, register by register. -/
theorem registerWrites : Obligations.RegisterWrites := by
  intro s a v h h' p
  have write {r : PpuReg} (hr : ppuRegOf a = r) : s.cpuWrite a v = s.regWrite r v := State.cpuWrite_register h h' hr s v
  refine ⟨fun e => ?control, fun e => ?mask, fun e => ?status, fun e => ?oamAddress, fun e => ?oamData, fun e => ?scroll, fun e => ?address⟩
  case control => exact (write (by simp [ppuRegOf, e])).trans (s.regWrite_control v)
  case mask => exact write (r := .mask) (by simp [ppuRegOf, e])
  case status => exact write (r := .status) (by simp [ppuRegOf, e])
  case oamAddress => exact write (r := .oamAddress) (by simp [ppuRegOf, e])
  case oamData => exact (write (by simp [ppuRegOf, e])).trans (s.regWrite_oamData v)
  case scroll => exact (write (by simp [ppuRegOf, e])).trans (s.regWrite_scroll v)
  case address => exact (write (by simp [ppuRegOf, e])).trans (s.regWrite_address v)

/-! ## The data register (R371) -/

/-- A write of graphics RAM is seen at the offset it reaches; one of graphics ROM nowhere (21 R107). -/
theorem Cart.ppuRead_ppuWrite {c : Cart} {a b : Nat} (hw : c.chr.wf = true) (h : c.chrOffset b = c.chrOffset a) (v : Byte) :
    (c.ppuWrite a v).ppuRead b = if c.image.chrIsRam = true then v else c.ppuRead b := by
  unfold Cart.ppuRead
  rw [Cart.chrOffset_ppuWrite, Cart.ppuWrite_chr, h]
  split
  · exact Memory.read_write_same _ v hw
  · rfl

/-- The pattern tables are the addresses below 0x2000 of the 14-bit space (20_memory R84). -/
theorem ppuCell_pattern_iff (c : Cart) (a : Addr) : (∃ m, ppuCell c a = .pattern m) ↔ a.toNat % 0x4000 < 0x2000 := by
  unfold ppuCell
  dsimp only
  repeat' split
  all_goals simp [*]

/-- A write on the picture unit's bus is seen where it reaches the same byte, graphics ROM excepted. -/
theorem State.ppuRead_ppuWrite_same {s : State} {a b : Addr} (hp : s.ppu.palette.wf = true) (hn : s.ppu.nametable.wf = true)
    (hc : s.cart.chr.wf = true) (h : samePpuByte s.cart b a = true) (v : Byte) :
    (s.ppuWrite a v).ppuRead b = if s.cart.image.chrIsRam = true ∨ 0x2000 ≤ a.toNat % 0x4000 then v else s.ppuRead b := by
  have high (h : ∀ m, ppuCell s.cart a ≠ .pattern m) : 0x2000 ≤ a.toNat % 0x4000 :=
    Nat.not_lt.mp fun hlow => ((ppuCell_pattern_iff s.cart a).mpr hlow).elim h
  unfold samePpuByte at h
  unfold State.ppuWrite State.ppuRead
  cases ha : ppuCell s.cart a with
  | pattern m =>
    have hlow : ¬0x2000 ≤ a.toNat % 0x4000 := Nat.not_le.mpr ((ppuCell_pattern_iff s.cart a).mp ⟨m, ha⟩)
    simp only [State.setCart_cart, ppuCell_ppuWrite, hlow, or_false]
    cases hb : ppuCell s.cart b with
    | pattern k =>
      rw [ha, hb] at h
      exact Cart.ppuRead_ppuWrite hc (beq_iff_eq.mp h) v
    | nametable k => simp [ha, hb] at h
    | palette k => simp [ha, hb] at h
  | nametable m =>
    simp only [State.setPpu_cart, State.setPpu_ppu, high (by simp [ha]), or_true, if_true]
    cases hb : ppuCell s.cart b with
    | nametable k =>
      rw [ha, hb] at h
      rw [beq_iff_eq.mp h]
      exact Memory.read_write_same _ v hn
    | pattern k => simp [ha, hb] at h
    | palette k => simp [ha, hb] at h
  | palette m =>
    simp only [State.setPpu_cart, State.setPpu_ppu, high (by simp [ha]), or_true, if_true]
    cases hb : ppuCell s.cart b with
    | palette k =>
      rw [ha, hb] at h
      rw [beq_iff_eq.mp h]
      exact Memory.read_write_same _ v hp
    | pattern k => simp [ha, hb] at h
    | nametable k => simp [ha, hb] at h

/-- Every register write records the byte (R357). -/
theorem State.regWrite_lastWrite (s : State) (r : PpuReg) (v : Byte) : (s.regWrite r v).ppu.lastWrite = v := by
  cases r <;> simp only [State.regWrite, State.regAction]
  case data =>
    unfold State.ppuWrite
    split <;> rfl
  all_goals repeat' split
  all_goals rfl

/-- Settles O46: the write is one on the picture unit's bus, seen at the byte it reaches and nowhere else. -/
theorem dataRegisterWrite : Obligations.DataRegisterWrite := by
  intro s a v h h' e hp hn hc t
  have hr : ppuRegOf a = .data := (ppuRegOf_memory a).2.mpr e
  obtain ⟨haddr, hread⟩ := State.cpuWrite_data ((regionOf_window h h').trans (congrArg _ hr)) v
  refine ⟨haddr, ?lastWrite, fun b => (hread b).trans ?read⟩
  case lastWrite =>
    exact (congrArg (·.ppu.lastWrite) (State.cpuWrite_register h h' hr s v)).trans (s.regWrite_lastWrite .data v)
  case read =>
    cases hs : samePpuByte s.cart b s.ppu.vramAddr with
    | true => simpa using State.ppuRead_ppuWrite_same hp hn hc hs v
    | false => simpa using State.ppuRead_ppuWrite_ne hp hn hc hs v

end Sys2Proof.Machine
end

section
/-! PROOFS. One dot of the picture unit (61_picture_unit R350 to R353, R403 to R407, R410): what its actions write, which of them run at which position, what
that does to the flags, the NMI latch and the callback record, and where the position goes. -/

namespace Sys2Proof.Machine

/-! ## What the actions of a dot write -/

/-- The memories and registers of the picture unit that the processor writes are the same: `q` is `p` but for the position, the status flags and the sprite
pipeline. -/
abbrev Ppu.SameBusSide (p q : Ppu) : Prop :=
  q = { p with
    scanline := q.scanline, dot := q.dot, frame := q.frame, vblank := q.vblank, sprite0Hit := q.sprite0Hit, spriteOverflow := q.spriteOverflow
    secondaryOam := q.secondaryOam, slots := q.slots, sprCount := q.sprCount, secCount := q.secCount, spr0InSlot0 := q.spr0InSlot0
    secHasSpr0 := q.secHasSpr0 }

theorem Ppu.SameBusSide.trans {p q r : Ppu} (h : p.SameBusSide q) (h' : q.SameBusSide r) : p.SameBusSide r := by
  rw [Ppu.SameBusSide, h', h]

/-- The sprite pipeline of a dot: the clear, the evaluation and the slot load (R376, R377, R380). -/
def State.spriteActions (s : State) : State := s.clearAction.evaluateAction.loadAction

/-- The actions of a dot, the sprite pipeline as one. -/
theorem State.act_eq (s : State) : s.act = s.prerenderAction.spriteActions.drawAction.vblankAction := rfl

/-- `t` is `s` but for what the sprite pipeline owns. -/
abbrev State.SameBesideSprites (s t : State) : Prop :=
  t = s.setPpu { s.ppu with
    spriteOverflow := t.ppu.spriteOverflow, secondaryOam := t.ppu.secondaryOam, slots := t.ppu.slots, sprCount := t.ppu.sprCount
    secCount := t.ppu.secCount, spr0InSlot0 := t.ppu.spr0InSlot0, secHasSpr0 := t.ppu.secHasSpr0 }

theorem State.SameBesideSprites.trans {s t u : State} (h : s.SameBesideSprites t) (h' : t.SameBesideSprites u) : s.SameBesideSprites u := by
  rw [State.SameBesideSprites, h', h]
  rfl

/-- `t` is `s` but for what evaluation owns: secondary OAM with its marks, and the overflow flag. -/
abbrev State.SameBesideEvaluation (s t : State) : Prop :=
  t = s.setPpu { s.ppu with
    spriteOverflow := t.ppu.spriteOverflow, secondaryOam := t.ppu.secondaryOam, secCount := t.ppu.secCount, secHasSpr0 := t.ppu.secHasSpr0 }

theorem State.SameBesideEvaluation.trans {s t u : State} (h : s.SameBesideEvaluation t) (h' : t.SameBesideEvaluation u) :
    s.SameBesideEvaluation u := by
  rw [State.SameBesideEvaluation, h', h]
  rfl

theorem State.SameBesideEvaluation.besideSprites {s t : State} (h : s.SameBesideEvaluation t) : s.SameBesideSprites t := by
  rw [State.SameBesideSprites, h]
  rfl

theorem State.clearAction_beside (s : State) : s.SameBesideEvaluation s.clearAction := by
  unfold State.clearAction
  split <;> rfl

theorem State.evaluateAction_beside (s : State) : s.SameBesideEvaluation s.evaluateAction := by
  unfold State.evaluateAction
  split
  · rw [Ppu.evaluateSprites_frame]
    rfl
  · rfl

theorem State.loadAction_beside (s : State) : s.SameBesideSprites s.loadAction := by
  unfold State.loadAction State.loadSlots
  split <;> rfl

theorem State.spriteActions_beside (s : State) : s.SameBesideSprites s.spriteActions :=
  (s.clearAction_beside.trans (State.evaluateAction_beside _)).besideSprites.trans (State.loadAction_beside _)

/-! ## Isolation (R410) -/

theorem State.tick_sameBusSide (s : State) : s.ppu.SameBusSide s.tick.ppu := by
  refine State.tick_induct (P := fun t => s.ppu.SameBusSide t.ppu) ?_ ?_ ?_ ?_ ?_ ?_ ?_ s rfl
  all_goals refine fun t ht => ht.trans ?_
  · unfold State.prerenderAction
    split <;> rfl
  · rw [t.clearAction_beside]
    rfl
  · rw [t.evaluateAction_beside]
    rfl
  · rw [t.loadAction_beside]
    rfl
  · unfold State.drawAction
    split <;> rfl
  · unfold State.vblankAction
    dsimp only
    repeat' split
    all_goals rfl
  · rfl

theorem State.ticks_sameBusSide (n : Nat) (s : State) : s.ppu.SameBusSide (State.ticks n s).ppu :=
  State.ticks_induct (P := fun t => s.ppu.SameBusSide t.ppu) (fun t ht => ht.trans t.tick_sameBusSide) n s rfl

/-! ## Which actions run where (R353) -/

section
variable (s : State)

@[simp] theorem State.prerenderAction_scanline : s.prerenderAction.ppu.scanline = s.ppu.scanline := by
  unfold State.prerenderAction
  split <;> rfl

@[simp] theorem State.spriteActions_scanline : s.spriteActions.ppu.scanline = s.ppu.scanline := by rw [s.spriteActions_beside]; rfl
@[simp] theorem State.spriteActions_dot : s.spriteActions.ppu.dot = s.ppu.dot := by rw [s.spriteActions_beside]; rfl

@[simp] theorem State.drawAction_scanline : s.drawAction.ppu.scanline = s.ppu.scanline := by
  unfold State.drawAction
  split <;> rfl

theorem State.prerenderAction_of_ne (h : ¬(s.ppu.scanline = -1 ∧ s.ppu.dot = 1)) : s.prerenderAction = s := if_neg h

theorem State.clearAction_of_ne (h : ¬(s.ppu.pipelineLine = true ∧ s.ppu.dot = 1)) : s.clearAction = s := if_neg h

theorem State.evaluateAction_of_ne (h : ¬(s.ppu.pipelineLine = true ∧ s.ppu.dot = s.params.spriteEvalDot)) : s.evaluateAction = s := if_neg h

theorem State.loadAction_of_ne (h : ¬(s.ppu.pipelineLine = true ∧ s.ppu.dot = 257)) : s.loadAction = s := if_neg h

theorem State.drawAction_of_hidden (h : s.ppu.scanline < 0 ∨ 239 < s.ppu.scanline) : s.drawAction = s := if_neg (by omega)

theorem State.vblankAction_of_ne (h : ¬(s.ppu.scanline = 241 ∧ s.ppu.dot = 1)) : s.vblankAction = s := if_neg h

theorem Ppu.pipelineLine_iff (p : Ppu) : p.pipelineLine = true ↔ -1 ≤ p.scanline ∧ p.scanline ≤ 239 := by
  simp only [Ppu.pipelineLine, Bool.and_eq_true, decide_eq_true_eq]

/-- Lines off the pipeline run none of it. -/
theorem State.spriteActions_of_idle (h : s.ppu.scanline < -1 ∨ 239 < s.ppu.scanline) : s.spriteActions = s := by
  have idle : ¬s.ppu.pipelineLine = true := fun hp => by have := s.ppu.pipelineLine_iff.mp hp; omega
  rw [State.spriteActions, s.clearAction_of_ne fun hc => idle hc.1, s.evaluateAction_of_ne fun he => idle he.1, s.loadAction_of_ne fun hl => idle hl.1]

/-- The prerender line draws nothing. -/
theorem State.act_prerender (h : s.ppu.scanline = -1) : s.act = s.prerenderAction.spriteActions := by
  rw [State.act_eq, State.drawAction_of_hidden _ (by simp [h]), State.vblankAction_of_ne _ (by simp [h])]

/-- A visible line runs the sprite pipeline and draws. -/
theorem State.act_visible (h : 0 ≤ s.ppu.scanline) (h' : s.ppu.scanline ≤ 239) : s.act = s.spriteActions.drawAction := by
  rw [State.act_eq, State.prerenderAction_of_ne _ (by omega), State.vblankAction_of_ne _ (by rw [State.drawAction_scanline, State.spriteActions_scanline]; omega)]

/-- The other lines only wait for the vertical blank. -/
theorem State.act_idle (h : s.ppu.scanline < -1 ∨ 239 < s.ppu.scanline) : s.act = s.vblankAction := by
  rw [State.act_eq, State.prerenderAction_of_ne _ (by omega), State.spriteActions_of_idle _ h, State.drawAction_of_hidden _ (by omega)]

/-- The three kinds of line. -/
theorem Ppu.line_cases (p : Ppu) : p.scanline = -1 ∨ (0 ≤ p.scanline ∧ p.scanline ≤ 239) ∨ (p.scanline < -1 ∨ 239 < p.scanline) := by omega

/-! ## The flags, the latch and the record -/

/-- What a dot off the pipeline and off the start of the vertical blank does: it only moves the position. -/
theorem State.act_of_quiet (h : s.ppu.scanline < -1 ∨ 239 < s.ppu.scanline) (hne : ¬(s.ppu.scanline = 241 ∧ s.ppu.dot = 1)) : s.act = s :=
  (s.act_idle h).trans (s.vblankAction_of_ne hne)

theorem State.vblankAction_at (h : s.ppu.scanline = 241) (h' : s.ppu.dot = 1) :
    s.vblankAction.ppu.vblank = true ∧ s.vblankAction.nmiPending = (s.nmiPending || s.ppu.ctrl.getLsbD 7)
      ∧ s.vblankAction.events = s.events ++ [.frameComplete] := by
  simp only [State.vblankAction, h, h', and_self, if_true]
  cases hc : s.ppu.ctrl.getLsbD 7 <;> simp

theorem State.prerenderAction_at (h : s.ppu.scanline = -1) (h' : s.ppu.dot = 1) :
    s.prerenderAction.ppu.vblank = false ∧ s.prerenderAction.ppu.sprite0Hit = false ∧ s.prerenderAction.ppu.spriteOverflow = true := by
  rw [State.prerenderAction, if_pos ⟨h, h'⟩]
  exact ⟨rfl, rfl, rfl⟩

end

/-- Where the sprite pipeline sets the overflow flag it stays set (R377). -/
theorem State.spriteActions_overflow {s : State} (h : s.ppu.spriteOverflow = true) : s.spriteActions.ppu.spriteOverflow = true := by
  have evaluated (t : State) (ht : t.ppu.spriteOverflow = true) : t.evaluateAction.ppu.spriteOverflow = true := by
    unfold State.evaluateAction
    split
    · exact t.ppu.evaluateSprites_overflow ht
    · exact ht
  have cleared : s.clearAction.ppu.spriteOverflow = true := by
    unfold State.clearAction
    split <;> exact h
  have loaded (t : State) : t.loadAction.ppu.spriteOverflow = t.ppu.spriteOverflow := by
    unfold State.loadAction
    split <;> rfl
  exact (loaded _).trans (evaluated _ cleared)

/-- What drawing a dot does to the flags and the record: sprite-0 hit is only ever set, and only pixels are recorded (R392, R400). -/
theorem State.drawAction_flags (s : State) :
    s.drawAction.ppu.vblank = s.ppu.vblank ∧ s.drawAction.ppu.spriteOverflow = s.ppu.spriteOverflow
      ∧ (s.ppu.sprite0Hit = true → s.drawAction.ppu.sprite0Hit = true) ∧ s.drawAction.nmiPending = s.nmiPending
      ∧ s.drawAction.events.count .frameComplete = s.events.count .frameComplete := by
  unfold State.drawAction
  split
  · refine ⟨rfl, rfl, fun h => ?_, rfl, ?_⟩
    · simp only [State.drawPixel, State.setEvents_ppu, State.setPpu_ppu, h, Bool.true_or]
      split <;> rfl
    · simp [State.drawPixel]
  · exact ⟨rfl, rfl, id, rfl, rfl⟩

section
variable (s : State)

@[simp] theorem State.spriteActions_vblank : s.spriteActions.ppu.vblank = s.ppu.vblank := by rw [s.spriteActions_beside]; rfl
@[simp] theorem State.spriteActions_sprite0Hit : s.spriteActions.ppu.sprite0Hit = s.ppu.sprite0Hit := by rw [s.spriteActions_beside]; rfl
@[simp] theorem State.spriteActions_nmiPending : s.spriteActions.nmiPending = s.nmiPending := by rw [s.spriteActions_beside]; rfl
@[simp] theorem State.spriteActions_events : s.spriteActions.events = s.events := by rw [s.spriteActions_beside]; rfl

/-- The start of the prerender line only clears vblank, makes no callback and leaves the latch (R406). -/
theorem State.prerenderAction_flags :
    s.prerenderAction.nmiPending = s.nmiPending ∧ s.prerenderAction.events = s.events ∧ (s.prerenderAction.ppu.vblank = true → s.ppu.vblank = true)
      ∧ (s.ppu.spriteOverflow = true → s.prerenderAction.ppu.spriteOverflow = true) := by
  unfold State.prerenderAction
  split
  · exact ⟨rfl, rfl, nofun, fun _ => rfl⟩
  · exact ⟨rfl, rfl, id, id⟩

/-- The start of the vertical blank only sets flags of the status register (R404). -/
theorem State.vblankAction_flags :
    (s.ppu.vblank = true → s.vblankAction.ppu.vblank = true) ∧ s.vblankAction.ppu.sprite0Hit = s.ppu.sprite0Hit
      ∧ s.vblankAction.ppu.spriteOverflow = s.ppu.spriteOverflow := by
  unfold State.vblankAction
  dsimp only
  repeat' split
  · exact ⟨fun _ => rfl, rfl, rfl⟩
  · exact ⟨fun _ => rfl, rfl, rfl⟩
  · exact ⟨id, rfl, rfl⟩

/-- Away from the start of the vertical blank a dot neither sets vblank, nor touches the latch, nor announces a frame. -/
theorem State.act_before_vblank (h : ¬(s.ppu.scanline = 241 ∧ s.ppu.dot = 1)) :
    s.act.nmiPending = s.nmiPending ∧ (s.act.ppu.vblank = true → s.ppu.vblank = true)
      ∧ s.act.events.count .frameComplete = s.events.count .frameComplete := by
  rcases s.ppu.line_cases with hp | ⟨hv, hv'⟩ | hi
  · obtain ⟨nmi, events, vblank, -⟩ := s.prerenderAction_flags
    simp only [s.act_prerender hp, State.spriteActions_nmiPending, State.spriteActions_vblank, State.spriteActions_events, nmi, events]
    exact ⟨trivial, vblank, trivial⟩
  · obtain ⟨vblank, -, -, nmi, count⟩ := s.spriteActions.drawAction_flags
    simp only [s.act_visible hv hv', vblank, nmi, count, State.spriteActions_nmiPending, State.spriteActions_vblank, State.spriteActions_events]
    exact ⟨trivial, id, trivial⟩
  · rw [s.act_of_quiet hi h]
    exact ⟨rfl, id, rfl⟩

/-- Away from the start of the prerender line a dot clears neither vblank nor sprite-0 hit. -/
theorem State.act_after_prerender (h : ¬(s.ppu.scanline = -1 ∧ s.ppu.dot = 1)) :
    (s.ppu.vblank = true → s.act.ppu.vblank = true) ∧ (s.ppu.sprite0Hit = true → s.act.ppu.sprite0Hit = true) := by
  obtain ⟨drawVblank, -, drawHit, -, -⟩ := s.spriteActions.drawAction_flags
  obtain ⟨vblank, hit, -⟩ := s.spriteActions.drawAction.vblankAction_flags
  rw [State.act_eq, s.prerenderAction_of_ne h]
  refine ⟨fun hs => vblank ?_, fun hs => hit ▸ drawHit ?_⟩
  · rw [drawVblank, State.spriteActions_vblank, hs]
  · rw [State.spriteActions_sprite0Hit, hs]

/-- No dot clears the overflow flag (R377, R406). -/
theorem State.act_overflow (h : s.ppu.spriteOverflow = true) : s.act.ppu.spriteOverflow = true := by
  obtain ⟨-, -, -, prerender⟩ := s.prerenderAction_flags
  obtain ⟨-, draw, -⟩ := s.prerenderAction.spriteActions.drawAction_flags
  obtain ⟨-, -, vblank⟩ := s.prerenderAction.spriteActions.drawAction.vblankAction_flags
  rw [State.act_eq, vblank, draw]
  exact State.spriteActions_overflow (prerender h)

end

/-- A tick is the actions of its position, then the move (R351). -/
theorem State.tick_of_act {s u : State} (h : s.act = u) : s.tick = u.setPpu u.ppu.advance := by rw [State.tick, h]

/-- Settles O39: a tick is the actions of its position and then a move, which touches no flag. -/
theorem verticalBlankAndFlags : Obligations.VerticalBlankAndFlags := by
  intro s t
  refine ⟨fun ⟨hl, hd⟩ => ?start, s.act_before_vblank, fun ⟨hl, hd⟩ => ?prerender, s.act_after_prerender⟩
  case start =>
    rw [show t = _ from State.tick_of_act (s.act_idle (by omega))]
    exact s.vblankAction_at hl hd
  case prerender =>
    obtain ⟨vblank, hit, overflow⟩ := s.prerenderAction_at hl hd
    rw [show t = _ from State.tick_of_act (s.act_prerender hl)]
    exact ⟨(State.spriteActions_vblank _).trans vblank, (State.spriteActions_sprite0Hit _).trans hit, State.spriteActions_overflow overflow⟩

/-- Settles O40: neither the processor's side of the buses nor a dot clears the flag. -/
theorem spriteOverflowIsNeverCleared : Obligations.SpriteOverflowIsNeverCleared := by
  intro s t h hs
  refine step_induct (P := fun u => u.ppu.spriteOverflow = true) hs ?read ?write ?regs ?nmi ?halt ?events State.act_overflow h
  case read => exact fun u a hu => (u.cpuRead_samePipeline a).spriteOverflow.trans hu
  case write => exact fun u a v hu => (u.cpuWrite_samePipeline a v).spriteOverflow.trans hu
  case regs => exact fun _ _ _ _ _ _ _ _ hu => hu
  case nmi => exact fun _ _ hu => hu
  case halt => exact fun _ _ hu => hu
  case events => exact fun _ _ hu => hu

/-- A dot never clears the NMI latch (R405). -/
theorem State.tick_nmiPending {s : State} (h : s.nmiPending = true) : s.tick.nmiPending = true := by
  by_cases hp : s.ppu.scanline = 241 ∧ s.ppu.dot = 1
  · have hact : s.act = s.vblankAction := s.act_idle (by omega)
    obtain ⟨-, nmi, -⟩ := s.vblankAction_at hp.1 hp.2
    exact (congrArg State.nmiPending hact).trans (nmi.trans (by rw [h, Bool.true_or]))
  · exact (s.act_before_vblank hp).1.trans h

/-- Settles O34, by the frame of any number of ticks outside the picture unit and the one inside it. -/
theorem pictureUnitIsolation : Obligations.PictureUnitIsolation := by
  intro n s t
  have inside : s.ppu.SameBusSide t.ppu := State.ticks_sameBusSide n s
  have latch : s.nmiPending = true → t.nmiPending = true := State.ticks_induct (P := fun u => u.nmiPending = true) (fun _ => State.tick_nmiPending) n s
  refine ⟨State.ticks_outside n s, latch, ?_⟩
  rw [inside]
  exact ⟨rfl, rfl, rfl, rfl, rfl, rfl, rfl, rfl, rfl, rfl, rfl⟩

/-! ## The position (R350, R352) -/

/-- `n` ticks move the position by `n` dots. -/
theorem State.ticks_position : ∀ (n : Nat) (s : State), (State.ticks n s).ppu.position = Position.advance^[n] s.ppu.position
  | 0, _ => rfl
  | n + 1, s => by rw [State.ticks, State.ticks_position n, s.tick_position, Function.iterate_succ_apply]

/-- The grid in raster order: position `i` of frame `f`, the prerender line first, 341 positions a line and 89342 in all. -/
def Position.atIndex (f i : Nat) : Position := { scanline := (i / 341 : Nat) - 1, dot := i % 341, frame := f }

/-- The end of the prerender line is skipped in odd frames (R352). -/
theorem Position.advance_skip {f : Nat} (hf : f % 2 = 1) : (Position.atIndex f 339).advance = Position.atIndex f 341 := by
  simp [Position.advance, Position.atIndex, hf]

/-- Every other position of the grid but the last is followed by the next. -/
theorem Position.advance_atIndex {f i : Nat} (hi : i + 1 < 89342) (h : f % 2 = 1 → i ≠ 339) :
    (Position.atIndex f i).advance = Position.atIndex f (i + 1) := by
  have noSkip : ¬(((i / 341 : Nat) : Int) - 1 = -1 ∧ i % 341 = 339 ∧ f % 2 = 1) := fun ⟨hl, hd, hf⟩ => h hf (by omega)
  rw [Position.advance, Position.atIndex, if_neg noSkip]
  by_cases hd : i % 341 = 340
  · have inside : ¬((i / 341 : Nat) : Int) - 1 = 260 := by omega
    rw [if_pos hd, if_neg inside]
    simp only [Position.atIndex, Position.mk.injEq, and_true]
    omega
  · rw [if_neg hd]
    simp only [Position.atIndex, Position.mk.injEq, and_true]
    omega

/-- The last position of a frame is followed by the first of the next. -/
theorem Position.advance_last (f : Nat) : (Position.atIndex f 89341).advance = Position.atIndex (f + 1) 0 := rfl

/-- `k` dots within a frame, away from the skip. -/
theorem Position.advance_iterate {f i k : Nat} (hk : i + k < 89342) (h : f % 2 = 1 → 340 ≤ i ∨ i + k ≤ 339) :
    Position.advance^[k] (Position.atIndex f i) = Position.atIndex f (i + k) := by
  induction k with
  | zero => rfl
  | succ k ih =>
    rw [Function.iterate_succ_apply', ih (by omega) fun hf => by have := h hf; omega]
    exact Position.advance_atIndex (by omega) fun hf => by have := h hf; omega

/-- The position `k` dots into a frame: in odd frames everything after the skip comes one dot earlier (R352). -/
theorem Position.advance_iterate_frame {f k : Nat} (hk : k < if f % 2 = 0 then 89342 else 89341) :
    Position.advance^[k] (Position.atIndex f 0) = Position.atIndex f (if f % 2 = 1 ∧ 340 ≤ k then k + 1 else k) := by
  by_cases hs : f % 2 = 1 ∧ 340 ≤ k
  · obtain ⟨hf, h340⟩ := hs
    rw [if_neg (by omega)] at hk
    obtain ⟨m, rfl⟩ : ∃ m, k = m + 1 + 339 := ⟨k - 340, by omega⟩
    rw [if_pos ⟨hf, h340⟩, Function.iterate_add_apply, Position.advance_iterate (by omega) (by omega), Nat.zero_add, Function.iterate_succ_apply,
      Position.advance_skip hf, Position.advance_iterate (by omega) (by omega)]
    congr 1
    omega
  · rw [if_neg hs, Position.advance_iterate _ (by omega), Nat.zero_add]
    split at hk <;> omega

/-- A frame takes 89342 dots, an odd one 89341 (R352, decision D37). -/
theorem Position.advance_frame (f : Nat) :
    Position.advance^[if f % 2 = 0 then 89342 else 89341] (Position.atIndex f 0) = Position.atIndex (f + 1) 0 := by
  obtain ⟨n, hn⟩ : ∃ n, (if f % 2 = 0 then 89342 else 89341) = n + 1 := ⟨if f % 2 = 0 then 89341 else 89340, by split <;> rfl⟩
  have last : (if f % 2 = 1 ∧ 340 ≤ n then n + 1 else n) = 89341 := by split at hn <;> split <;> omega
  rw [hn, Function.iterate_succ_apply', Position.advance_iterate_frame (by omega), last, Position.advance_last]

/-- Settles O38: ticks run through the grid in raster order. -/
theorem frameLength : Obligations.FrameLength := by
  refine ⟨fun s f hs => ⟨?next, fun k h0 hk => ?inside⟩, fun s hs => ?first⟩
  case next =>
    rw [State.ticks_position, hs]
    exact Position.advance_frame f
  case inside =>
    have at' : (State.ticks k s).ppu.position = Position.atIndex f (if f % 2 = 1 ∧ 340 ≤ k then k + 1 else k) := by
      rw [State.ticks_position, hs]
      exact Position.advance_iterate_frame hk
    rw [at']
    refine ⟨rfl, fun he => ?_⟩
    simp only [Position.atIndex, Position.mk.injEq] at he
    split at he <;> omega
  case first =>
    rw [State.ticks_position, hs]
    show Position.advance^[89000 + 1] (Position.atIndex 0 341) = Position.atIndex 1 0
    rw [Function.iterate_succ_apply', Position.advance_iterate (by omega) (by omega), Position.advance_last]

end Sys2Proof.Machine
end

section
/-! PROOFS. Sprite evaluation (61_picture_unit R375 to R377): the first loop selects the first sprites in range, in OAM order, and the scan after it sets the
overflow flag or nothing. -/

namespace Sys2Proof.Machine

theorem Ppu.inRange_eq (p : Ppu) (y : Byte) : p.inRange y = spriteInRange p.scanline p.ctrl y := (Bool.decide_and _ _).symm

/-- Of the last `k` sprites of OAM, those in range of the line, in OAM order. -/
def Ppu.candidates (p : Ppu) (k : Nat) : List Nat :=
  (List.range' (64 - k) k).filter fun n => spriteInRange p.scanline p.ctrl (p.oam.read (4 * n))

theorem Ppu.candidates_all (p : Ppu) : p.candidates 64 = (List.range 64).filter fun n => spriteInRange p.scanline p.ctrl (p.oam.read (4 * n)) := by
  rw [Ppu.candidates, List.range_eq_range']

theorem Ppu.candidates_succ (p : Ppu) {k : Nat} (hk : k < 64) :
    p.candidates (k + 1) = if p.inRange (p.oam.read (4 * (63 - k))) = true then (63 - k) :: p.candidates k else p.candidates k := by
  rw [Ppu.candidates, List.range'_succ, List.filter_cons, p.inRange_eq, show 64 - (k + 1) = 63 - k by omega, show 63 - k + 1 = 64 - k by omega]
  rfl

/-! ## The selection -/

section
variable (p : Ppu) (n : Nat)

@[simp] theorem Ppu.selectSprite_secCount : (p.selectSprite n).secCount = p.secCount + 1 := rfl
@[simp] theorem Ppu.selectSprite_secHasSpr0 : (p.selectSprite n).secHasSpr0 = (p.secHasSpr0 || n == 0) := rfl
@[simp] theorem Ppu.selectSprite_oam : (p.selectSprite n).oam = p.oam := rfl
@[simp] theorem Ppu.selectSprite_candidates (k : Nat) : (p.selectSprite n).candidates k = p.candidates k := rfl

theorem Ppu.selectSprite_wf (h : p.secondaryOam.wf = true) : (p.selectSprite n).secondaryOam.wf = true :=
  Memory.wf_write _ _ (Memory.wf_write _ _ (Memory.wf_write _ _ (Memory.wf_write _ _ h)))

/-- A selected sprite's four bytes go to the first free place, in their order. -/
theorem Ppu.selectSprite_read (h : p.secondaryOam.wf = true) (i : Nat) :
    (p.selectSprite n).secondaryOam.read i = if i / 4 = p.secCount then p.oam.read (4 * n + i % 4) else p.secondaryOam.read i := by
  have h1 := Memory.wf_write (4 * p.secCount) (p.oam.read (4 * n)) h
  have h2 := Memory.wf_write (4 * p.secCount + 1) (p.oam.read (4 * n + 1)) h1
  have h3 := Memory.wf_write (4 * p.secCount + 2) (p.oam.read (4 * n + 2)) h2
  simp only [Ppu.selectSprite, Memory.read_write _ _ _ _ h3, Memory.read_write _ _ _ _ h2, Memory.read_write _ _ _ _ h1, Memory.read_write _ _ _ _ h]
  by_cases hi : i / 4 = p.secCount
  · obtain ⟨j, hj, rfl⟩ : ∃ j < 4, i = 4 * p.secCount + j := ⟨i % 4, Nat.mod_lt _ (by decide), by omega⟩
    rw [if_pos hi, show (4 * p.secCount + j) % 4 = j by omega]
    interval_cases j <;> simp
  · rw [if_neg hi, if_neg (by omega), if_neg (by omega), if_neg (by omega), if_neg (by omega)]

end

/-- The first loop selects candidates until eight are chosen. -/
theorem Ppu.selectFrom_eq_foldl {k : Nat} (hk : k ≤ 64) (p : Ppu) :
    (Ppu.selectFrom k p).1 = ((p.candidates k).take (8 - p.secCount)).foldl Ppu.selectSprite p := by
  induction k generalizing p with
  | zero => simp [Ppu.selectFrom, Ppu.candidates]
  | succ k ih =>
    rw [Ppu.selectFrom, p.candidates_succ hk]
    by_cases hc : p.secCount < 8
    · rw [if_pos hc, ih (by omega)]
      split
      · rw [show 8 - p.secCount = 8 - (p.secCount + 1) + 1 by omega, List.take_succ_cons, List.foldl_cons]
        rfl
      · rfl
    · rw [if_neg hc, Nat.sub_eq_zero_of_le (Nat.le_of_not_lt hc), List.take_zero, List.foldl_nil]

/-- With fewer candidates than free places the first loop leaves no sprite unexamined. -/
theorem Ppu.selectFrom_snd_of_free {k : Nat} (hk : k ≤ 64) (p : Ppu) (h : p.secCount + (p.candidates k).length < 8) : (Ppu.selectFrom k p).2 = 0 := by
  induction k generalizing p with
  | zero => rfl
  | succ k ih =>
    rw [p.candidates_succ hk] at h
    rw [Ppu.selectFrom, if_pos (by omega)]
    split at h <;> rename_i hr
    · rw [if_pos hr]
      refine ih (by omega) _ ?_
      rw [List.length_cons] at h
      rw [Ppu.selectSprite_candidates, Ppu.selectSprite_secCount]
      omega
    · rw [if_neg hr]
      exact ih (by omega) p h

/-- When the first loop fills the last free place with sprite `c`, it leaves unexamined the sprites after `c`. -/
theorem Ppu.selectFrom_snd_of_full {k c : Nat} (hk : k ≤ 64) (p : Ppu) (hc : p.secCount < 8)
    (h : (p.candidates k)[7 - p.secCount]? = some c) : (Ppu.selectFrom k p).2 = 63 - c := by
  induction k generalizing p with
  | zero => simp [Ppu.candidates] at h
  | succ k ih =>
    rw [p.candidates_succ hk] at h
    rw [Ppu.selectFrom, if_pos hc]
    split at h <;> rename_i hr
    · rw [if_pos hr]
      by_cases hlast : p.secCount = 7
      · rw [hlast] at h
        obtain rfl : 63 - k = c := by simpa using h
        cases k with
        | zero => rfl
        | succ k =>
          rw [Ppu.selectFrom, if_neg (by rw [Ppu.selectSprite_secCount]; omega)]
          omega
      · refine ih (by omega) _ (by rw [Ppu.selectSprite_secCount]; omega) ?_
        rw [show 7 - p.secCount = 7 - (p.secCount + 1) + 1 by omega, List.getElem?_cons_succ] at h
        exact h
    · rw [if_neg hr]
      exact ih (by omega) p hc h

/-! ## What the selection leaves -/

/-- Selecting a list of sprites, in order. -/
def Ppu.selectAll (p : Ppu) (l : List Nat) : Ppu := l.foldl Ppu.selectSprite p

theorem Ppu.selectAll_secCount (l : List Nat) (p : Ppu) : (p.selectAll l).secCount = p.secCount + l.length := by
  induction l generalizing p with
  | nil => rfl
  | cons n l ih => rw [Ppu.selectAll, List.foldl_cons, ← Ppu.selectAll, ih, Ppu.selectSprite_secCount, List.length_cons, Nat.add_assoc, Nat.add_comm 1]

theorem Ppu.selectAll_secHasSpr0 (l : List Nat) (p : Ppu) : (p.selectAll l).secHasSpr0 = (p.secHasSpr0 || decide (0 ∈ l)) := by
  induction l generalizing p with
  | nil => simp [Ppu.selectAll]
  | cons n l ih =>
    rw [Ppu.selectAll, List.foldl_cons, ← Ppu.selectAll, ih, Ppu.selectSprite_secHasSpr0, Bool.or_assoc]
    cases n <;> simp

/-- The sprites selected lie in secondary OAM in order, four bytes each, from the first free place on; the rest is as it was. -/
theorem Ppu.selectAll_read (l : List Nat) (p : Ppu) (h : p.secondaryOam.wf = true) (i : Nat) :
    (p.selectAll l).secondaryOam.read i = if p.secCount ≤ i / 4 ∧ i / 4 < p.secCount + l.length then
      p.oam.read (4 * l.getD (i / 4 - p.secCount) 0 + i % 4) else p.secondaryOam.read i := by
  induction l generalizing p with
  | nil => rw [List.length_nil, if_neg (by omega)]; rfl
  | cons n l ih =>
    rw [Ppu.selectAll, List.foldl_cons, ← Ppu.selectAll, ih _ (p.selectSprite_wf n h), p.selectSprite_read n h, List.length_cons,
      Ppu.selectSprite_secCount, Ppu.selectSprite_oam]
    rcases Nat.lt_trichotomy (i / 4) p.secCount with hlt | heq | hgt
    · rw [if_neg (by omega), if_neg (by omega), if_neg (by omega)]
    · rw [if_neg (by omega), if_pos heq, if_pos (by omega), heq, Nat.sub_self, List.getD_cons_zero]
    · rw [if_neg (c := i / 4 = p.secCount) (by omega), show i / 4 - p.secCount = i / 4 - (p.secCount + 1) + 1 by omega, List.getD_cons_succ]
      refine ite_congr (propext (by omega)) (fun _ => rfl) (fun _ => rfl)

/-! ## The whole evaluation -/

/-- The sprites that evaluation puts into secondary OAM (R377). -/
def Ppu.chosen (p : Ppu) : List Nat := ((List.range 64).filter fun n => spriteInRange p.scanline p.ctrl (p.oam.read (4 * n))).take 8

theorem Ppu.chosen_eq_take (p : Ppu) : p.chosen = (p.clearSecondary.candidates 64).take 8 := by
  rw [Ppu.candidates_all]
  rfl

theorem Ppu.clearSecondary_read (p : Ppu) {k : Nat} (hk : k < 32) : p.clearSecondary.secondaryOam.read k = 0xFF := by
  rw [Ppu.clearSecondary, Memory.fill, Memory.read_ofBytes, List.getD_eq_getElem _ _ (by simpa using hk), List.getElem_replicate]

/-- After the clear the first loop has all eight places free. -/
theorem Ppu.selectFrom_clear (p : Ppu) : (Ppu.selectFrom 64 p.clearSecondary).1 = p.clearSecondary.selectAll p.chosen := by
  rw [Ppu.selectFrom_eq_foldl (Nat.le_refl 64), p.chosen_eq_take]
  rfl

theorem Ppu.evaluated_read (p : Ppu) (i : Nat) :
    p.clearSecondary.evaluateSprites.secondaryOam.read i =
      if i / 4 < p.chosen.length then p.oam.read (4 * p.chosen.getD (i / 4) 0 + i % 4) else p.clearSecondary.secondaryOam.read i := by
  have wf : p.clearSecondary.secondaryOam.wf = true := Memory.fits_wf (Memory.fits_ofBytes (n := 32) _ (by simp))
  have sec : p.clearSecondary.evaluateSprites.secondaryOam = (Ppu.selectFrom 64 p.clearSecondary).1.secondaryOam := rfl
  rw [sec, p.selectFrom_clear, Ppu.selectAll_read _ _ wf]
  simp [Ppu.clearSecondary]

/-- Evaluation sets the overflow flag where the scan after the selection finds a sprite (R377). -/
theorem Ppu.evaluated_overflow (p : Ppu) :
    p.clearSecondary.evaluateSprites.spriteOverflow
      = (p.spriteOverflow || (Ppu.selectFrom 64 p.clearSecondary).1.overflowScan (Ppu.selectFrom 64 p.clearSecondary).2 0) := by
  show ((Ppu.selectFrom 64 p.clearSecondary).1.spriteOverflow || _) = _
  congr 1
  rw [Ppu.selectFrom_frame]
  rfl

/-- With fewer than eight chosen there is nothing left to scan. -/
theorem Ppu.evaluated_overflow_of_free (p : Ppu) (h : p.chosen.length < 8) : p.clearSecondary.evaluateSprites.spriteOverflow = p.spriteOverflow := by
  rw [p.chosen_eq_take, List.length_take] at h
  have free : p.clearSecondary.secCount + (p.clearSecondary.candidates 64).length < 8 := by
    rw [show p.clearSecondary.secCount = 0 from rfl]
    omega
  rw [p.evaluated_overflow, Ppu.selectFrom_snd_of_free (Nat.le_refl 64) _ free]
  exact Bool.or_false _

/-- With eight chosen the scan begins with the sprite after the eighth. -/
theorem Ppu.evaluated_overflow_of_full (p : Ppu) (h : p.chosen.length = 8) (hlast : p.chosen.getD 7 0 < 63)
    (hr : spriteInRange p.scanline p.ctrl (p.oam.read (4 * (p.chosen.getD 7 0 + 1))) = true) :
    p.clearSecondary.evaluateSprites.spriteOverflow = true := by
  have last : (p.clearSecondary.candidates 64)[7 - p.clearSecondary.secCount]? = some (p.chosen.getD 7 0) := by
    rw [List.getD_eq_getElem _ _ (by omega), ← List.getElem?_eq_getElem, p.chosen_eq_take, List.getElem?_take_of_lt (by omega)]
    rfl
  have left : (Ppu.selectFrom 64 p.clearSecondary).2 = (62 - p.chosen.getD 7 0) + 1 := by
    rw [Ppu.selectFrom_snd_of_full (Nat.le_refl 64) _ (Nat.zero_lt_succ 7) last]
    omega
  have next : 63 - (62 - p.chosen.getD 7 0) = p.chosen.getD 7 0 + 1 := by omega
  rw [p.evaluated_overflow, left, Ppu.overflowScan, next, Ppu.inRange_eq, Ppu.selectFrom_frame]
  simp only [Ppu.clearSecondary, Nat.add_zero, hr, Bool.true_or, Bool.or_true]

/-- Settles O57, by the selection as a fold over the chosen sprites and by where the scan begins. -/
theorem spriteEvaluation : Obligations.SpriteEvaluation := by
  intro p q chosen
  refine ⟨?count, ?sprite0, fun k hk j hj => ?bytes, fun k hk hk' => ?rest, fun h => ?kept, p.evaluated_overflow_of_free, p.evaluated_overflow_of_full⟩
  case count =>
    show (Ppu.selectFrom 64 p.clearSecondary).1.secCount = _
    rw [p.selectFrom_clear, Ppu.selectAll_secCount]
    exact Nat.zero_add _
  case sprite0 =>
    show (Ppu.selectFrom 64 p.clearSecondary).1.secHasSpr0 = _
    rw [p.selectFrom_clear, Ppu.selectAll_secHasSpr0]
    exact Bool.false_or _
  case bytes =>
    rw [p.evaluated_read, show (4 * k + j) / 4 = k by omega, show (4 * k + j) % 4 = j by omega]
    exact if_pos hk
  case rest =>
    have above : ¬k / 4 < p.chosen.length := fun hlt => by have : 4 * p.chosen.length ≤ k := hk; omega
    rw [p.evaluated_read, if_neg above, p.clearSecondary_read hk']
  case kept => exact p.clearSecondary.evaluateSprites_overflow h

end Sys2Proof.Machine
end

section
/-! PROOFS. The sprite slots (61_picture_unit R380, R388): what the load at dot 257 puts into them, what a slot shows after any number of pixels, and which
slot gives the sprite pixel. -/

namespace Sys2Proof.Machine

/-! ## Bits of a byte -/

theorem bit_le (v : Byte) (i : Nat) : bit v i ≤ 1 := Bool.toNat_le _

/-- A bit as a number (00_scope R7). -/
theorem bit_eq (v : Byte) (i : Nat) : bit v i = v.toNat / 2 ^ i % 2 := by
  rw [bit, getLsbD_eq_decide]
  rcases Nat.mod_two_eq_zero_or_one (v.toNat / 2 ^ i) with h | h <;> simp [h]

/-- Flipping a row reverses its bits (R380). -/
theorem bit_reverse8 (v : Byte) {n : Nat} (hn : n < 8) : bit (reverse8 v) n = bit v (7 - n) := by
  have := bit_le v 0
  have := bit_le v 1
  have := bit_le v 2
  have := bit_le v 3
  have := bit_le v 4
  have := bit_le v 5
  have := bit_le v 6
  have := bit_le v 7
  rw [bit_eq (reverse8 v), reverse8, BitVec.toNat_ofNat]
  interval_cases n <;> simp only [Nat.reduceSub] <;> omega

/-- Shifting left moves bit `7 − d` to the top, and shifts zeros in. -/
theorem bit_shiftLeft_top (v : Byte) (d : Nat) : bit (v <<< d) 7 = if d ≤ 7 then bit v (7 - d) else 0 := by
  rw [bit, BitVec.getLsbD_shiftLeft]
  split
  · rw [decide_eq_true (by decide), decide_eq_false (by omega)]
    rfl
  · rw [decide_eq_true (p := 7 < d) (by omega)]
    rfl

/-! ## The load (R380) -/

theorem Params.spriteEvalDot_le {p : Params} (h : p.wf = true) : p.spriteEvalDot ≤ 256 := by
  simp only [Params.wf, Bool.and_eq_true, decide_eq_true_eq] at h
  obtain ⟨⟨-, hle⟩, -⟩ := h
  exact hle

/-- At dot 257 of a pipeline line the slots are loaded and nothing else is done, as evaluation comes earlier (00_scope R6). -/
theorem State.act_load {s : State} (hp : s.params.wf = true) (h : -1 ≤ s.ppu.scanline) (h' : s.ppu.scanline ≤ 239) (hd : s.ppu.dot = 257) :
    s.act = s.loadSlots := by
  have early : s.params.spriteEvalDot ≤ 256 := Params.spriteEvalDot_le hp
  have sprites : s.spriteActions = s.loadSlots := by
    rw [State.spriteActions, s.clearAction_of_ne (by omega), s.evaluateAction_of_ne (by omega)]
    exact if_pos ⟨s.ppu.pipelineLine_iff.mpr ⟨h, h'⟩, hd⟩
  have dot : s.loadSlots.ppu.dot = 257 := hd
  rw [State.act_eq, s.prerenderAction_of_ne (by omega), sprites, show s.loadSlots.drawAction = s.loadSlots from if_neg (by omega),
    s.loadSlots.vblankAction_of_ne (by omega)]

/-- The pattern address of row `r` of a sprite (R380): flipped vertically as bit 7 of its attributes says, in both heights. -/
theorem Ppu.spriteAddr_eq (p : Ppu) (tile attr y : Byte) {r h : Nat} (hh : h = if p.ctrl.getLsbD 5 then 16 else 8) (hr : r < h)
    (hy : p.scanline = y.toNat + r) :
    p.spriteAddr tile attr y =
      let row := if attr.getLsbD 7 then h - 1 - r else r
      BitVec.ofNat 16 (if h = 8 then 0x1000 * bit p.ctrl 3 + 16 * tile.toNat + row
        else 0x1000 * (tile.toNat % 2) + 16 * (tile.toNat / 2 * 2) + 16 * (row / 8) + row % 8) := by
  have hrow : (if attr.getLsbD 7 then (h : Int) - 1 - r else r) = (if attr.getLsbD 7 then h - 1 - r else r : Nat) := by split <;> omega
  have height : p.spriteHeight = h := by rw [Ppu.spriteHeight, hh]; split <;> rfl
  have line : p.scanline - y.toNat = r := by omega
  simp only [Ppu.spriteAddr, height, line, hrow]
  generalize (if attr.getLsbD 7 then h - 1 - r else r) = row at hrow
  rw [← BitVec.ofInt_natCast]
  obtain rfl | rfl : h = 8 ∨ h = 16 := by rw [hh]; split <;> simp
  · rw [if_pos (by decide), if_pos rfl]
    congr 1
    push_cast
    ring
  · have half : (if (row : Int) ≥ 8 then (16 : Int) else 0) = 16 * (row / 8 : Nat) := by split <;> omega
    rw [half, if_neg (by decide), if_neg (by decide), bit_eq, and_FE_toNat, pow_zero, Nat.div_one]
    congr 1
    push_cast
    ring

/-- A loaded slot's planes are the two bytes of its row, flipped horizontally as bit 6 of the attributes says (R380). -/
theorem State.loadedSlot_planes (s : State) {k n : Nat} (hk : k < s.ppu.secCount) (hn : n < 8) {row : Addr}
    (hrow : s.ppu.spriteAddr (s.ppu.secondaryOam.read (4 * k + 1)) (s.ppu.secondaryOam.read (4 * k + 2)) (s.ppu.secondaryOam.read (4 * k)) = row) :
    let source := if (s.ppu.secondaryOam.read (4 * k + 2)).getLsbD 6 then 7 - n else n
    bit (s.loadedSlot k).lo n = bit (s.ppuRead row) source ∧ bit (s.loadedSlot k).hi n = bit (s.ppuRead (row + 8)) source := by
  simp only [State.loadedSlot, if_pos hk, hrow]
  split
  · exact ⟨bit_reverse8 _ hn, bit_reverse8 _ hn⟩
  · exact ⟨rfl, rfl⟩

/-! ## The slots while a line is drawn (R388) -/

/-- A slot is active once as many pixels have passed as its left edge says. -/
theorem Slot.counter_eq_zero_iff (t : Slot) (k : Nat) : BitVec.ofNat 8 (t.x.toNat - k) = 0 ↔ t.x.toNat ≤ k := by
  have hx := t.x.isLt
  constructor <;> intro h <;> bv_omega

/-- `k` pixels run a slot's counter down by `k`, and what is left of them shifts its planes. -/
theorem Slot.advance_iterate (t : Slot) (k : Nat) :
    Slot.advance^[k] t =
      { t with lo := t.lo <<< (k - t.x.toNat), hi := t.hi <<< (k - t.x.toNat), x := BitVec.ofNat 8 (t.x.toNat - k) } := by
  induction k with
  | zero => simp
  | succ k ih =>
    rw [Function.iterate_succ_apply', ih, Slot.advance]
    simp only [t.counter_eq_zero_iff]
    by_cases hk : t.x.toNat ≤ k
    · have zero : t.x.toNat - k = 0 := by omega
      have zero' : t.x.toNat - (k + 1) = 0 := by omega
      simp only [hk, zero, zero', if_true, ← BitVec.shiftLeft_add, Nat.succ_sub hk]
    · have down : BitVec.ofNat 8 (t.x.toNat - k) - 1 = BitVec.ofNat 8 (t.x.toNat - (k + 1)) := by bv_omega
      simp only [hk, if_false, down, show k - t.x.toNat = 0 by omega, show k + 1 - t.x.toNat = 0 by omega]

theorem Ppu.advanceSlots_iterate (p : Ppu) (k : Nat) (j : Fin 8) : (Ppu.advanceSlots^[k] p).slots[j] = Slot.advance^[k] p.slots[j] := by
  induction k with
  | zero => rfl
  | succ k ih => rw [Function.iterate_succ_apply', Function.iterate_succ_apply', Ppu.advanceSlots_slot, ih]

/-- A slot shows its eight pixels from its left edge on, and nothing elsewhere. -/
theorem Slot.colour_advance_iterate (t : Slot) (k : Nat) :
    (Slot.advance^[k] t).colour =
      if t.x.toNat ≤ k ∧ k ≤ t.x.toNat + 7 then 2 * bit t.hi (7 - (k - t.x.toNat)) + bit t.lo (7 - (k - t.x.toNat)) else 0 := by
  rw [Slot.advance_iterate, Slot.colour]
  simp only [t.counter_eq_zero_iff, bit_shiftLeft_top]
  by_cases h1 : t.x.toNat ≤ k
  · by_cases h2 : k ≤ t.x.toNat + 7
    · rw [if_pos h1, if_pos (by omega), if_pos (by omega), if_pos ⟨h1, h2⟩]
    · rw [if_pos h1, if_neg (by omega), if_neg (by omega), if_neg (by omega)]
  · rw [if_neg h1, if_neg fun h => h1 h.1]

theorem firstOpaque_colour_of_transparent {l : List Slot} (h : ∀ t ∈ l, t.colour = 0) (k : Nat) : (firstOpaque k l).colour = 0 := by
  induction l generalizing k with
  | nil => rfl
  | cons t l ih =>
    rw [firstOpaque, if_pos (h t List.mem_cons_self)]
    exact ih (fun u hu => h u (List.mem_cons_of_mem t hu)) (k + 1)

/-- The first slot that shows a colour is the one whose predecessors show none. -/
theorem firstOpaque_eq {l : List Slot} {i : Nat} (hi : i < l.length) (h : l[i].colour ≠ 0) (hl : ∀ (m : Nat) (hm : m < i), l[m].colour = 0) (k : Nat) :
    firstOpaque k l = { colour := l[i].colour, attr := l[i].attr, slot := some (k + i) } := by
  induction l generalizing i k with
  | nil => exact absurd hi (Nat.not_lt_zero i)
  | cons t l ih =>
    cases i with
    | zero => exact if_neg h
    | succ i =>
      have ht : t.colour = 0 := hl 0 (Nat.zero_lt_succ i)
      rw [firstOpaque, if_pos ht, ih (by simpa using hi) h (fun m hm => hl (m + 1) (Nat.succ_lt_succ hm)),
        Nat.add_assoc, Nat.add_comm 1]
      rfl

/-- Settles O58: the load slot by slot, and the slots after any number of pixels. -/
theorem spritePixels : Obligations.SpritePixels := by
  refine ⟨fun s hp h h' hd => ?load, fun p k => ⟨fun j => ?colour, fun hq => ?transparent, fun j hj hl => ?first⟩⟩
  case load =>
    intro t
    have ht : t.ppu = s.loadSlots.ppu.advance := congrArg State.ppu (State.tick_of_act (State.act_load hp h h' hd))
    have slot (j : Fin 8) : t.ppu.slots[j] = s.loadedSlot j.val := by rw [ht]; exact s.loadSlots_slot j
    refine ⟨by rw [ht]; rfl, by rw [ht]; rfl, fun j => ⟨fun hj => ?empty, fun hj => ?loaded⟩⟩
    case empty =>
      rw [slot, State.loadedSlot, if_neg (Nat.not_lt.mpr hj)]
      rfl
    case loaded =>
      intro y tile attr height
      rw [slot]
      refine ⟨by rw [State.loadedSlot, if_pos hj], by rw [State.loadedSlot, if_pos hj], fun r hline hr => ?_⟩
      intro row addr n hn source
      have haddr := s.ppu.spriteAddr_eq (s.ppu.secondaryOam.read (4 * j.val + 1)) attr (s.ppu.secondaryOam.read (4 * j.val)) (h := height) rfl hr hline
      rw [BitVec.ofNat_add]
      exact s.loadedSlot_planes hj hn haddr
  case colour =>
    rw [Ppu.advanceSlots_iterate, Slot.colour_advance_iterate]
  case transparent =>
    refine firstOpaque_colour_of_transparent (fun t ht => ?_) 0
    obtain ⟨i, hi, rfl⟩ := Vector.getElem_of_mem (Vector.mem_toList_iff.mp ht)
    exact hq ⟨i, hi⟩
  case first =>
    have before (m : Nat) (hm : m < j.val) : ((Ppu.advanceSlots^[k] p).slots.toList[m]'(by simp; omega)).colour = 0 := by
      simpa using hl ⟨m, by omega⟩ hm
    simpa [Ppu.spritePixel] using firstOpaque_eq (by simp) (by simpa using hj) before 0

end Sys2Proof.Machine
end

section
/-! PROOFS. Drawing (61_picture_unit R385 to R400): the pixel a drawing position gives, and the pixels of a whole line. -/

namespace Sys2Proof.Machine

/-! ## A drawing position -/

/-- At a drawing position the sprite pipeline only evaluates: the slots are loaded after the last of them (R380). -/
theorem State.spriteActions_drawing {s : State} (hd : s.ppu.dot ≤ 256) : s.SameBesideEvaluation s.spriteActions := by
  have evaluated : s.SameBesideEvaluation s.clearAction.evaluateAction := s.clearAction_beside.trans (State.evaluateAction_beside _)
  have dot : s.clearAction.evaluateAction.ppu.dot = s.ppu.dot := by
    rw [evaluated]
    rfl
  rw [show s.spriteActions = _ from State.loadAction_of_ne _ (by omega)]
  exact evaluated

/-- The positions where a pixel is drawn (R385). -/
abbrev Position.Draws (p : Position) : Prop := 0 ≤ p.scanline ∧ p.scanline ≤ 239 ∧ 1 ≤ p.dot ∧ p.dot ≤ 256

@[simp] theorem Ppu.position_scanline (p : Ppu) : p.position.scanline = p.scanline := rfl
@[simp] theorem Ppu.position_dot (p : Ppu) : p.position.dot = p.dot := rfl

/-- A tick at a drawing position draws the pixel of the state it started from. -/
theorem State.tick_drawing {s : State} (h : s.ppu.position.Draws) :
    s.tick.events = s.drawPixel.events ∧ s.tick.ppu.sprite0Hit = s.drawPixel.ppu.sprite0Hit := by
  obtain ⟨h0, h239, h1, h256⟩ := h
  have draw : s.spriteActions.drawAction = s.spriteActions.drawPixel :=
    if_pos (by simpa using ⟨h0, h239, h1, h256⟩)
  rw [State.tick_of_act ((s.act_visible h0 h239).trans draw), State.spriteActions_drawing h256]
  exact ⟨rfl, rfl⟩

/-! ## The background pixel and the colour (R386, R390, R399) -/

/-- The groups of two bits in a byte of attributes, by powers of 4 (R386). -/
theorem two_pow_eq_four_pow (a b : Nat) : 2 ^ (4 * a + 2 * b) = 4 ^ (2 * a + b) := by
  rw [show 4 * a + 2 * b = 2 * (2 * a + b) by ring, pow_mul]
  rfl

theorem State.bgPixel_bounds (s : State) (x y : Nat) : (s.bgPixel x y).colour < 4 ∧ (s.bgPixel x y).group < 4 := by
  refine ⟨?_, Nat.mod_lt _ (by decide)⟩
  unfold State.bgPixel
  dsimp only
  have two (u v : Byte) (i : Nat) : 2 * bit u i + bit v i < 4 := by
    have := bit_le u i
    have := bit_le v i
    omega
  exact two _ _ _

theorem Slot.colour_lt (t : Slot) : t.colour < 4 := by
  have := bit_le t.hi 7
  have := bit_le t.lo 7
  unfold Slot.colour
  split <;> omega

theorem firstOpaque_colour_lt (l : List Slot) (k : Nat) : (firstOpaque k l).colour < 4 := by
  induction l generalizing k with
  | nil => exact Nat.zero_lt_succ 3
  | cons t l ih =>
    rw [firstOpaque]
    split
    · exact ih (k + 1)
    · exact t.colour_lt

/-- A palette index has five bits. -/
theorem paletteIndex_lt {bg group sp : Nat} (hb : bg < 4) (hg : group < 4) (hs : sp < 4) (attr : Byte) : paletteIndex bg group sp attr < 32 := by
  unfold paletteIndex
  repeat' split
  all_goals omega

/-- The priority rule (R390): the sprite pixel, but for a transparent one and for one behind an opaque background pixel. -/
theorem paletteIndex_eq (bg group sp : Nat) (attr : Byte) :
    paletteIndex bg group sp attr =
      if sp = 0 then (if bg = 0 then 0 else 4 * group + bg)
      else if bg ≠ 0 ∧ attr.getLsbD 5 then 4 * group + bg else 0x10 + 4 * (attr.toNat % 4) + sp := by
  unfold paletteIndex
  by_cases hs : sp = 0
  · rw [if_pos hs, if_pos hs]
  · by_cases hb : bg = 0 <;> simp [hs, hb]

/-- The colour of a palette index is its entry of palette RAM (R399, 20_memory R85). -/
theorem State.colourOf_eq (s : State) {idx : Nat} (h : idx < 32) : s.colourOf idx = (s.ppu.palette.read (palIndex idx)).setWidth 6 := by
  have address : (0x3F00 ||| BitVec.ofNat 16 idx : Addr).toNat = 0x3F00 + idx := by
    interval_cases idx <;> rfl
  have cell : ppuCell s.cart (0x3F00 ||| BitVec.ofNat 16 idx) = .palette (palIndex idx) := by
    rw [ppuCell_palette _ (by omega) (by omega), address]
    simp only [palIndex, show (0x3F00 + idx) % 0x20 = idx % 0x20 by omega]
  unfold State.colourOf State.ppuRead
  rw [cell]

section
variable (s : State)

/-- The gated colours of the background and of the sprites at the current position (R361, R385). -/
def State.gatedBackground : Nat := if s.ppu.mask.getLsbD 3 then (s.bgPixel (s.ppu.dot - 1) s.ppu.scanline.toNat).colour else 0
def State.gatedSprite : Nat := if s.ppu.mask.getLsbD 4 then s.ppu.spritePixel.colour else 0

/-- The palette index of the current position (R390). -/
def State.pixelIndex : Nat :=
  paletteIndex s.gatedBackground (s.bgPixel (s.ppu.dot - 1) s.ppu.scanline.toNat).group s.gatedSprite s.ppu.spritePixel.attr

theorem State.pixelIndex_lt : s.pixelIndex < 32 := by
  obtain ⟨colour, group⟩ := s.bgPixel_bounds (s.ppu.dot - 1) s.ppu.scanline.toNat
  have sprite := firstOpaque_colour_lt s.ppu.slots.toList 0
  refine paletteIndex_lt ?_ group ?_ _
  · unfold State.gatedBackground
    split <;> omega
  · unfold State.gatedSprite Ppu.spritePixel
    split <;> omega

/-- Drawing makes one callback: the palette entry of the index, at the position (R399, R400). -/
theorem State.drawPixel_events :
    s.drawPixel.events
      = s.events ++ [.pixel (s.ppu.dot - 1) s.ppu.scanline.toNat ((s.ppu.palette.read (palIndex s.pixelIndex)).setWidth 6)] := by
  rw [← s.colourOf_eq s.pixelIndex_lt]
  rfl

/-- Drawing sets sprite-0 hit under the rule `opaque_overlap` where an opaque pixel of slot 0 holding sprite 0 lies over an opaque background pixel (R392). -/
theorem State.drawPixel_sprite0Hit :
    s.drawPixel.ppu.sprite0Hit = true ↔ s.ppu.sprite0Hit = true ∨ (s.params.sprite0Rule = .opaqueOverlap ∧ s.ppu.spr0InSlot0 = true
      ∧ s.ppu.spritePixel.slot = some 0 ∧ s.gatedSprite ≠ 0 ∧ s.gatedBackground ≠ 0 ∧ s.ppu.dot - 1 ≠ 255) := by
  have hit : s.drawPixel.ppu.sprite0Hit = match s.params.sprite0Rule with
      | .never => s.ppu.sprite0Hit
      | .opaqueOverlap => s.ppu.sprite0Hit
          || s.ppu.sprite0Overlap (s.ppu.dot - 1) s.gatedBackground s.gatedSprite s.ppu.spritePixel.slot := rfl
  rw [hit]
  cases s.params.sprite0Rule with
  | never => simp
  | opaqueOverlap => simp [Ppu.sprite0Overlap, and_assoc]

end

/-- Settles O59: the tick draws one pixel, and its parts are those of the rules. -/
theorem pixelPriority : Obligations.PixelPriority := by
  intro s h0 h239 h1 h256 x y X Y table tx ty tile attr group plane colour p bg sp spriteIndex index
  obtain ⟨events, hit⟩ := State.tick_drawing ⟨h0, h239, h1, h256⟩
  have pixel : s.bgPixel x y = { colour := colour, group := group } := by
    simp only [State.bgPixel, bit_eq s.ppu.ctrl, two_pow_eq_four_pow, pow_zero, Nat.div_one]
    rfl
  have background : s.gatedBackground = bg := by
    rw [State.gatedBackground, show s.bgPixel (s.ppu.dot - 1) s.ppu.scanline.toNat = _ from pixel]
  have palette : s.pixelIndex = index := by
    rw [State.pixelIndex, background, paletteIndex_eq, show s.bgPixel (s.ppu.dot - 1) s.ppu.scanline.toNat = _ from pixel]
    rfl
  refine ⟨?callback, ?sprite0⟩
  case callback => rw [events, s.drawPixel_events, palette]
  case sprite0 =>
    rw [hit, s.drawPixel_sprite0Hit, background]
    rfl

/-! ## A line (R385, R400) -/

/-- The coordinates of a pixel callback. -/
def Event.coordinates : Event → Option (Nat × Nat)
  | .pixel x y _ => some (x, y)
  | .frameComplete => none

/-- The pixel a position gives: none where it does not draw. -/
def Position.pixels (p : Position) : List (Nat × Nat) := if p.Draws then [(p.dot - 1, p.scanline.toNat)] else []

/-- Where nothing is drawn a tick records at most the end of a frame. -/
theorem State.tick_not_drawing {s : State} (h : ¬s.ppu.position.Draws) :
    s.tick.events = s.events ∨ s.tick.events = s.events ++ [.frameComplete] := by
  rcases s.ppu.line_cases with hp | ⟨hv, hv'⟩ | hi
  · obtain ⟨-, events, -, -⟩ := s.prerenderAction_flags
    rw [State.tick_of_act (s.act_prerender hp)]
    exact .inl ((State.spriteActions_events _).trans events)
  · have noDraw : s.spriteActions.drawAction = s.spriteActions := if_neg (by simpa using h)
    rw [State.tick_of_act ((s.act_visible hv hv').trans noDraw)]
    exact .inl s.spriteActions_events
  · by_cases hvb : s.ppu.scanline = 241 ∧ s.ppu.dot = 1
    · rw [State.tick_of_act (s.act_idle hi)]
      exact .inr (s.vblankAction_at hvb.1 hvb.2).2.2
    · rw [State.tick_of_act (s.act_of_quiet hi hvb)]
      exact .inl rfl

/-- What a tick adds to the record. -/
theorem State.tick_events (s : State) :
    ∃ l, s.tick.events = s.events ++ l ∧ l.filterMap Event.coordinates = s.ppu.position.pixels := by
  by_cases h : s.ppu.position.Draws
  · refine ⟨_, (State.tick_drawing h).1.trans s.drawPixel_events, ?_⟩
    rw [Position.pixels, if_pos h]
    rfl
  · rw [Position.pixels, if_neg h]
    rcases State.tick_not_drawing h with e | e
    · exact ⟨[], by rw [e, List.append_nil], rfl⟩
    · exact ⟨_, e, rfl⟩

/-- What `n` ticks add to the record: the pixels of the positions they pass, in order. -/
theorem State.ticks_events (n : Nat) (s : State) :
    ∃ l, (State.ticks n s).events = s.events ++ l ∧ l.filterMap Event.coordinates
      = (List.range n).flatMap fun k => (Position.advance^[k] s.ppu.position).pixels := by
  induction n generalizing s with
  | zero => exact ⟨[], (List.append_nil _).symm, rfl⟩
  | succ n ih =>
    obtain ⟨l, hl, hpixels⟩ := s.tick_events
    obtain ⟨l', hl', hpixels'⟩ := ih s.tick
    refine ⟨l ++ l', by rw [State.ticks, hl', hl, List.append_assoc], ?_⟩
    rw [List.filterMap_append, hpixels, hpixels', s.tick_position, List.range_succ_eq_map, List.flatMap_cons, List.flatMap_map]
    rfl

/-- Position 0 of a line, in raster order. -/
theorem Position.eq_atIndex {p : Position} (h : -1 ≤ p.scanline) (hd : p.dot = 0) : p = Position.atIndex p.frame (341 * (p.scanline + 1).toNat) := by
  obtain ⟨line, dot, frame⟩ := p
  simp only [Position.atIndex, Position.mk.injEq, and_true] at h hd ⊢
  omega

theorem Position.pixels_atIndex_visible {f m k : Nat} (hm : m < 240) (hk : k < 256) :
    (Position.atIndex f (341 * (m + 1) + (1 + k))).pixels = [(k, m)] := by
  have dot : (341 * (m + 1) + (1 + k)) % 341 = k + 1 := by omega
  have line : (341 * (m + 1) + (1 + k)) / 341 = m + 1 := by omega
  rw [Position.pixels, Position.atIndex, dot, line, if_pos (by dsimp only [Position.Draws]; omega)]
  simp

/-- The prerender line and the lines from 240 on draw nothing, nor does the first dot of a visible line. -/
theorem Position.pixels_atIndex_hidden {f i : Nat} (h : i < 341 ∨ 341 * 241 ≤ i ∨ i % 341 = 0 ∨ 257 ≤ i % 341) : (Position.atIndex f i).pixels = [] :=
  if_neg (by dsimp only [Position.Draws, Position.atIndex]; omega)

/-- The pixels of the 341 positions of a visible line: dots 1 to 256, with the dots before and after them hidden. -/
theorem pixels_of_visible_line (f : Nat) {m : Nat} (hm : m < 240) :
    ((List.range 341).flatMap fun k => (Position.advance^[k] (Position.atIndex f (341 * (m + 1)))).pixels) = (List.range 256).map fun x => (x, m) := by
  have inLine (k : Nat) (hk : k ∈ List.range 341) :
      (Position.advance^[k] (Position.atIndex f (341 * (m + 1)))).pixels = (Position.atIndex f (341 * (m + 1) + k)).pixels := by
    rw [List.mem_range] at hk
    rw [Position.advance_iterate (by omega) (by omega)]
  have before : ((List.range 1).flatMap fun k => (Position.atIndex f (341 * (m + 1) + k)).pixels) = [] :=
    List.flatMap_eq_nil_iff.mpr fun k hk => Position.pixels_atIndex_hidden (by rw [List.mem_range] at hk; omega)
  have after : ((List.range 84).flatMap fun k => (Position.atIndex f (341 * (m + 1) + (1 + 256 + k))).pixels) = [] :=
    List.flatMap_eq_nil_iff.mpr fun k hk => Position.pixels_atIndex_hidden (by rw [List.mem_range] at hk; omega)
  rw [List.flatMap_congr inLine, show 341 = 1 + 256 + 84 from rfl, List.range_add, List.range_add, List.flatMap_append, List.flatMap_append,
    List.flatMap_map, List.flatMap_map, before, after, List.nil_append, List.append_nil]
  exact (List.flatMap_congr fun k hk => Position.pixels_atIndex_visible hm (List.mem_range.mp hk)).trans (List.flatMap_pure_eq_map _ _)

/-- The prerender line, shortened or not, draws nothing. -/
theorem pixels_of_prerender_line (f : Nat) : ((List.range 341).flatMap fun k => (Position.advance^[k] (Position.atIndex f 0)).pixels) = [] := by
  refine List.flatMap_eq_nil_iff.mpr fun k hk => ?_
  rw [List.mem_range] at hk
  rw [Position.advance_iterate_frame (by split <;> omega), Position.pixels_atIndex_hidden]
  split <;> omega

/-- Nor do the lines from 240 to 260. -/
theorem pixels_of_late_line (f : Nat) {m : Nat} (hm : 241 ≤ m) (hm' : m ≤ 261) :
    ((List.range 341).flatMap fun k => (Position.advance^[k] (Position.atIndex f (341 * m))).pixels) = [] := by
  refine List.flatMap_eq_nil_iff.mpr fun k hk => ?_
  rw [List.mem_range] at hk
  rw [Position.advance_iterate (by omega) (by omega), Position.pixels_atIndex_hidden (by omega)]

/-- The pixels of the 341 ticks of a line. -/
theorem State.line_pixels {s : State} (h : -1 ≤ s.ppu.scanline) (hd : s.ppu.dot = 0) :
    ((State.ticks 341 s).events.drop s.events.length).filterMap Event.coordinates
      = (List.range 341).flatMap fun k => (Position.advance^[k] (Position.atIndex s.ppu.frame (341 * (s.ppu.scanline + 1).toNat))).pixels := by
  obtain ⟨l, hl, hpixels⟩ := s.ticks_events 341
  rw [hl, List.drop_left, hpixels, Position.eq_atIndex (p := s.ppu.position) h hd]
  rfl

/-- Settles O60: the ticks of a line pass its positions in order, and each that draws gives its pixel. -/
theorem rasterOrder : Obligations.RasterOrder := by
  intro s hd pixels
  have line (h : -1 ≤ s.ppu.scanline) : pixels = _ := State.line_pixels h hd
  refine ⟨fun h h' => ?visible, fun h => ?hidden⟩
  case visible =>
    have hm : (s.ppu.scanline + 1).toNat = s.ppu.scanline.toNat + 1 := by omega
    rw [line (by omega), hm]
    exact pixels_of_visible_line _ (by omega)
  case hidden =>
    rw [line (by omega)]
    rcases h with hp | ⟨h, h'⟩
    · rw [show (s.ppu.scanline + 1).toNat = 0 by omega]
      exact pixels_of_prerender_line _
    · exact pixels_of_late_line _ (by omega) (by omega)

end Sys2Proof.Machine
end

section
/-! PROOFS. What an instruction costs and how far it moves `PC` (70_reset_and_hazards R440, R441). -/

namespace Sys2Proof.Machine

/-! ## The table of R440 -/

theorem ReadMode.cost_bounds (m : ReadMode) (crossed : Bool) : 2 ≤ m.cost crossed ∧ m.cost crossed ≤ 6 := by
  have := crossed.toNat_le
  cases m with
  | imm v => simp [ReadMode.cost]
  | mem m => cases m <;> simp only [ReadMode.cost] <;> omega

theorem MemMode.storeCost_bounds (m : MemMode) : 2 ≤ m.storeCost ∧ m.storeCost ≤ 6 := by
  cases m <;> simp [MemMode.storeCost]

theorem RmwMode.cost_bounds (m : RmwMode) : 2 ≤ m.cost ∧ m.cost ≤ 7 := by
  cases m <;> simp [RmwMode.cost]

theorem ImpliedOp.cost_bounds (op : ImpliedOp) : 2 ≤ op.cost ∧ op.cost ≤ 4 := by
  cases op <;> decide

/-- The entry of a `NOP*` has a length of 1, 2 or 3 (45 R300). -/
theorem nopStar_length_bounds {i : Instr} {nops : List (Byte × NopEntry)} {n : Nat} (hw : i.wf nops = true) (h : action i = .nopStar n) :
    1 ≤ n ∧ n ≤ 3 := by
  cases i with
  | nopStarOther op e =>
    obtain ⟨⟨⟨-, hl, -⟩, -⟩, -⟩ := nopStarOther_wf.mp hw
    cases h
    exact hl
  | _ => cases h <;> decide

/-- An instruction takes 2 to 7 cycles. -/
theorem action_cost_bounds {i : Instr} {nops : List (Byte × NopEntry)} (hw : i.wf nops = true) (s : State) :
    2 ≤ (action i).cost s ∧ (action i).cost s ≤ 7 := by
  cases h : action i with
  | read op m => exact (m.cost_bounds _).imp_right fun h => h.trans (by decide)
  | store op m => exact m.storeCost_bounds.imp_right fun h => h.trans (by decide)
  | modify op m => exact m.cost_bounds
  | implied op => exact op.cost_bounds.imp_right fun h => h.trans (by decide)
  | branch op d =>
    simp only [Action.cost, takenCost_eq]
    split
    · split <;> decide
    · decide
  | nopStar n =>
    have := nopStar_length_bounds hw h
    simp only [Action.cost]
    omega
  | _ => simp [Action.cost]

/-- Settles O29: `exec` performs the action, whose cost is the table's, mode by mode. -/
theorem everyInstructionCompletes : Obligations.EveryInstructionCompletes := by
  intro i s hw c next target
  obtain ⟨hmin, hmax⟩ := action_cost_bounds hw s
  refine ⟨_, exec_eq_perform i s, ?min, ?max, fun hpc => ?length, ?cost⟩
  case min =>
    rw [Action.perform_cycles]
    omega
  case max =>
    rw [Action.perform_cycles]
    omega
  case length => rw [Action.perform_pc s hpc, action_length hw]
  case cost =>
    rw [Action.perform_cycles]
    congr 1
    cases action i with
    | read op m =>
      cases m with
      | imm v => rfl
      | mem m => cases m <;> rfl
    | store op m => cases m <;> rfl
    | modify op m => cases m <;> rfl
    | implied op => cases op <;> rfl
    | branch op d =>
      have hnext : (s.pc + 2).toNat = next := BitVec.toNat_add s.pc 2
      have htarget : (s.pc + 2 + sext16 d).toNat = target d := by rw [add_sext16_toNat, hnext]
      simp only [Action.cost, takenCost_eq, hnext, htarget, op.taken_iff, ne_eq, ite_not]
    | _ => rfl

end Sys2Proof.Machine
end

section
/-! PROOFS. One unit of the processor (70_reset_and_hazards R423) and the round made of it (R426): the step that runs a decoded instruction, and three dots to a
cycle. -/

namespace Sys2Proof.Machine

/-! ## One unit -/

/-- A fetch takes no cycle. -/
theorem State.fetch_cycles (s : State) : s.fetch.2.cycles = s.cycles :=
  State.fetch_induct (P := fun t => t.cycles = s.cycles) (fun t a h => (t.cpuRead_cycles a).trans h) s rfl

/-- Everything a unit can be: an NMI entry, an instruction, or a fatal decode error. -/
theorem procUnit_cases {s t : State} (h : procUnit s = .next t) :
    t = s.nmiEntry
      ∨ (∃ i u, s.fetch = (some i, u) ∧ t = (action i).perform u)
      ∨ ∃ u p, s.fetch = (none, u) ∧ t = u.setHalted (some p) := by
  unfold procUnit at h
  split at h
  · cases h
    exact .inl rfl
  · split at h
    next u hf =>
      cases h
      exact .inr (.inr ⟨u, _, hf, rfl⟩)
    next i u hf =>
      rw [exec_eq_perform] at h
      cases h
      exact .inr (.inl ⟨i, u, hf, rfl⟩)

/-- A unit always answers a next state. -/
theorem procUnit_answers (s : State) : ∃ t, procUnit s = .next t := by
  unfold procUnit
  split
  · exact ⟨_, rfl⟩
  · split
    · exact ⟨_, rfl⟩
    · exact ⟨_, exec_eq_perform _ _⟩

/-- A fetch is reads, so it touches nothing that an instruction does not. -/
theorem State.fetch_instrFrame (s : State) : s.InstrFrame s.fetch.2 :=
  State.fetch_induct (P := s.InstrFrame) (fun t a h => h.trans (t.cpuRead_instrFrame a)) s (.refl s)

/-- No unit moves the picture unit or changes the parameters. -/
theorem procUnit_frame {s t : State} (h : procUnit s = .next t) : t.params = s.params ∧ t.ppu.position = s.ppu.position := by
  have fetched := s.fetch_instrFrame
  obtain rfl | ⟨i, u, hf, rfl⟩ | ⟨u, p, hf, rfl⟩ := procUnit_cases h
  · rw [State.nmiEntry_eq, State.enterHandler_eq _ _ _ _ (by decide) (by decide)]
    exact ⟨rfl, rfl⟩
  · rw [hf] at fetched
    obtain ⟨-, -, hparams, -, -, -, hpos, -⟩ := instructionFrame i u _ (exec_eq_perform i u)
    exact ⟨hparams.trans fetched.params, hpos.trans fetched.ppu.position⟩
  · rw [hf] at fetched
    exact ⟨fetched.params, fetched.ppu.position⟩

/-- The cycles of a unit: the 7 of an NMI entry, the instruction's, or none when the machine halts. -/
theorem procUnit_cycles {s t : State} (h : procUnit s = .next t) :
    t.cycles = s.cycles + 7
      ∨ (∃ i u, s.fetch = (some i, u) ∧ t.cycles = s.cycles + (action i).cost u)
      ∨ (t.cycles = s.cycles ∧ t.halted ≠ none) := by
  have fetched := s.fetch_cycles
  obtain rfl | ⟨i, u, hf, rfl⟩ | ⟨u, p, hf, rfl⟩ := procUnit_cases h
  · refine .inl ?_
    rw [State.nmiEntry_eq, State.enterHandler_eq _ _ _ _ (by decide) (by decide)]
    rfl
  · rw [hf] at fetched
    exact .inr (.inl ⟨i, u, hf, by rw [Action.perform_cycles, fetched]⟩)
  · rw [hf] at fetched
    exact .inr (.inr ⟨fetched, Option.some_ne_none p⟩)

theorem procUnit_cycles_le {s t : State} (h : procUnit s = .next t) : s.cycles ≤ t.cycles := by
  obtain hc | ⟨i, u, -, hc⟩ | ⟨hc, -⟩ := procUnit_cycles h <;> omega

/-- Under an admissible UNDOC_NOP_TABLE a unit takes 7 cycles at most, and 2 at least unless the machine halts (R440). -/
theorem procUnit_cost_bounds {s t : State} (hn : nopTableWf s.params.undocNops = true) (h : procUnit s = .next t) :
    t.cycles ≤ s.cycles + 7 ∧ (t.halted = none → s.cycles + 2 ≤ t.cycles) := by
  obtain hc | ⟨i, u, hf, hc⟩ | ⟨hc, hh⟩ := procUnit_cycles h
  · omega
  · have := action_cost_bounds (State.fetch_wf hn hf) u
    omega
  · exact ⟨by omega, fun hr => absurd hr hh⟩

/-! ## The round -/

/-- A step is one unit and the dots of the cycles it consumed (R426). -/
theorem step_unit {s u : State} (h : step s = .next u) : ∃ t, procUnit (s.setEvents []) = .next t ∧ u = catchUp s t := by
  obtain ⟨hr, -⟩ := step_cases h
  obtain ⟨t, ht⟩ := procUnit_answers (s.setEvents [])
  rw [step_running hr, runUnit, ht] at h
  exact ⟨t, ht, (Host.Outcome.next.inj h).symm⟩

/-- `k` more ticks since power-on are `k` more advances (61 R352). -/
theorem positionAfter_add (n : Nat) : ∀ k, positionAfter (n + k) = Position.advance^[k] (positionAfter n)
  | 0 => rfl
  | k + 1 => by rw [← Nat.add_assoc, positionAfter, positionAfter_add n k, Function.iterate_succ_apply']

/-- Settles O37: a unit leaves the picture unit where it stands, and three ticks follow for each cycle it took. -/
theorem threeDotsPerCycle : Obligations.ThreeDotsPerCycle := by
  refine ⟨rfl, fun s u hs h => ?_⟩
  obtain ⟨t, ht, rfl⟩ := step_unit h
  obtain ⟨-, hpos⟩ := procUnit_frame ht
  have hle : s.cycles ≤ t.cycles := procUnit_cycles_le (s := s.setEvents []) ht
  calc (catchUp s t).ppu.position
      = Position.advance^[3 * (t.cycles - s.cycles)] t.ppu.position := State.ticks_position _ t
    _ = Position.advance^[3 * (t.cycles - s.cycles)] (positionAfter (3 * s.cycles)) := by rw [hpos, ← hs]; rfl
    _ = positionAfter (3 * s.cycles + 3 * (t.cycles - s.cycles)) := (positionAfter_add _ _).symm
    _ = positionAfter (3 * t.cycles) := by rw [← Nat.mul_add, Nat.add_sub_cancel' hle]
    _ = positionAfter (3 * (catchUp s t).cycles) := by rw [catchUp, (State.ticks_outside _ t).cycles]

/-- A quiet read is a look at the byte. -/
theorem State.cpuRead_eq_peek {s : State} {a : Addr} (h : quiet a = true) : s.cpuRead a = (s.peek a, s) :=
  Prod.ext rfl (State.cpuRead_quiet h)

/-- From quiet addresses the fetch is the decoder, and changes nothing (30 R159, 20 R79). -/
theorem State.fetch_of_decode {s : State} {i : Instr} {rest : List Byte} (h0 : quiet s.pc = true) (h1 : quiet (s.pc + 1) = true)
    (h2 : quiet (s.pc + 2) = true)
    (h : decode s.params.undocNops [s.peek s.pc, s.peek (s.pc + 1), s.peek (s.pc + 2)] = .ok (i, rest)) : s.fetch = (some i, s) := by
  have hpc : s.pc + 1 + 1 = s.pc + 2 := by rw [BitVec.add_assoc]; rfl
  unfold State.fetch
  simp only [State.read16, hpc, State.cpuRead_eq_peek h0, State.cpuRead_eq_peek h1, State.cpuRead_eq_peek h2]
  unfold decode at h
  dsimp only at h
  cases hs : shapeOf s.params.undocNops (s.peek s.pc) with
  | none =>
    rw [hs] at h
    cases h
  | some sh =>
    rw [hs] at h
    cases sh with
    | one j => cases h; rfl
    | two f => cases h; rfl
    | three f => cases h; rfl
    | unread n j =>
      dsimp only at h
      split at h <;> cases h
      rfl

/-- Settles O5: at quiet addresses the fetch answers what the decoder reads, and the step goes on from the same state. -/
theorem stepRunsDecodedInstruction : Obligations.StepRunsDecodedInstruction := by
  intro s i rest hr hn h0 h1 h2 hd
  have hf : (s.setEvents []).fetch = (some i, s.setEvents []) :=
    State.fetch_of_decode h0 h1 h2 (rest := rest) (by simpa only [State.peek_setEvents, State.setEvents_params, State.setEvents_pc] using hd)
  refine ⟨_, exec_eq_perform i _, ?_⟩
  rw [step_eq_roundAfter hr hn hf, exec_eq_perform]
  rfl

end Sys2Proof.Machine
end

section
/-! PROOFS. The loop of the processor's `step(minCycles)` (70_reset_and_hazards R422): the unit it ends with, and the budget it had consumed before. -/

namespace Sys2Proof.Machine

/-- The loop ends when the budget is consumed or the machine is halted. -/
theorem procLoop_done {n : Int} {c : Nat} {s : State} (h : n ≤ c ∨ s.halted ≠ none) (fuel : Nat) : procLoop n fuel c s = (c, s) := by
  cases fuel with
  | zero => rfl
  | succ fuel => rw [procLoop, if_neg fun ⟨hlt, hr⟩ => h.elim (fun hle => by omega) fun hh => hh hr]

/-- Until then it runs a unit and counts its cycles. -/
theorem procLoop_unit {n : Int} {c : Nat} {s t : State} (hc : (c : Int) < n) (hr : s.halted = none) (ht : procUnit s = .next t) (fuel : Nat) :
    procLoop n (fuel + 1) c s = procLoop n fuel (c + (t.cycles - s.cycles)) t := by
  rw [procLoop, if_pos ⟨hc, hr⟩, ht]

/-- How a run of the loop from `c` cycles consumed and the state `s` ends with `r`: the unit of `u` is its last, begun with `k` cycles consumed. -/
structure LastUnit (n : Int) (c : Nat) (s : State) (r : Nat × State) (k : Nat) (u : State) : Prop where
  begun : (k : Int) < n
  running : u.halted = none
  unit : procUnit u = .next r.2
  ended : n ≤ r.1 ∨ r.2.halted ≠ none
  le : c ≤ k
  /-- the cycles before the last unit are counted exactly, and so are its own -/
  before : c + u.cycles = k + s.cycles
  after : r.1 + u.cycles = k + r.2.cycles
  cost : r.1 ≤ k + 7
  /-- the loop with budget `k`, given enough fuel, consumes exactly `k` cycles and stops at `u` -/
  run_eq : ∀ fuel, k ≤ c + fuel → procLoop k fuel c s = (k, u)

/-- A running machine with budget left has a last unit: every unit that leaves it running consumes a cycle at least, so the fuel suffices. -/
theorem exists_lastUnit {n : Int} : ∀ {fuel c : Nat} {s : State}, nopTableWf s.params.undocNops = true → (c : Int) < n → s.halted = none →
    n ≤ c + fuel → ∃ k u, LastUnit n c s (procLoop n fuel c s) k u
  | 0, c, s, _, hc, _, hfuel => by omega
  | fuel + 1, c, s, hn, hc, hr, hfuel => by
    obtain ⟨t, ht⟩ := procUnit_answers s
    have hle := procUnit_cycles_le ht
    obtain ⟨hmax, hmin⟩ := procUnit_cost_bounds hn ht
    rw [procLoop_unit hc hr ht]
    by_cases hend : n ≤ (c + (t.cycles - s.cycles) : Nat) ∨ t.halted ≠ none
    case pos =>
      rw [procLoop_done hend]
      exact ⟨c, s, hc, hr, ht, hend, le_rfl, rfl, by dsimp only; omega, by dsimp only; omega, fun f _ => procLoop_done (.inl le_rfl) f⟩
    case neg =>
      obtain ⟨hc', hr'⟩ := not_or.mp hend
      have hr' : t.halted = none := not_not.mp hr'
      have hmin := hmin hr'
      have hn' : nopTableWf t.params.undocNops = true := by rw [(procUnit_frame ht).1]; exact hn
      obtain ⟨k, u, h⟩ := exists_lastUnit (fuel := fuel) hn' (not_le.mp hc') hr' (by omega)
      have hle' := h.le
      have hbefore := h.before
      refine ⟨k, u, h.begun, h.running, h.unit, h.ended, by omega, by omega, h.after, h.cost, fun f hf => ?_⟩
      obtain ⟨f, rfl⟩ : ∃ g, f = g + 1 := ⟨f - 1, by omega⟩
      rw [procLoop_unit (by omega) hr ht, h.run_eq f (by omega)]

/-- Settles O42, by the last unit where there is one: a machine that is halted, or has no budget, runs none. -/
theorem processorStepContract : Obligations.ProcessorStepContract := by
  intro n s hn r
  by_cases hstop : n ≤ (0 : Nat) ∨ s.halted ≠ none
  case pos =>
    have hr : r = (0, s) := procLoop_done hstop _
    rw [hr]
    exact ⟨by simp, hstop, fun hpos hrun => absurd hrun (hstop.resolve_left (by omega)), fun _ => rfl⟩
  case neg =>
    obtain ⟨hpos, hrun⟩ := not_or.mp hstop
    obtain ⟨k, u, h⟩ : ∃ k u, LastUnit n 0 s r k u := exists_lastUnit hn (not_le.mp hpos) (not_not.mp hrun) (by omega)
    have hrun_k : procStep k s = (k, u) := h.run_eq _ (by omega)
    have hbefore := h.before
    have hafter := h.after
    have hcost := h.cost
    refine ⟨by omega, h.ended, fun _ _ => ⟨k, h.begun, ?_⟩, fun hle => absurd hle hpos⟩
    rw [hrun_k]
    exact ⟨rfl, h.running, h.unit, by omega⟩

end Sys2Proof.Machine
end
